-- ==== Sys2Proof/Word.lean ====
section
/-! DEFINITION. The smallest types of the model: a byte, an eight-bit slot mask, and a value per slot. -/

namespace Sys2Proof

/-- A byte of the start record or of a frame's payload. -/
abbrev Byte := BitVec 8

/-- A set of the slots 0..7, one bit per slot: bit s stands for slot s (section 12.3). -/
abbrev SlotMask := BitVec 8

/-- The number of an orchestral section, 0..7 (section 0.2). -/
abbrev Slot := Fin 8

/-- One value for each of the eight slots. -/
structure PerSlot (α : Type) where
  slot0 : α
  slot1 : α
  slot2 : α
  slot3 : α
  slot4 : α
  slot5 : α
  slot6 : α
  slot7 : α
deriving DecidableEq, Repr

/-- The value of slot `k`. -/
def PerSlot.get {α : Type} (v : PerSlot α) (k : Slot) : α :=
  match k with
  | 0 => v.slot0
  | 1 => v.slot1
  | 2 => v.slot2
  | 3 => v.slot3
  | 4 => v.slot4
  | 5 => v.slot5
  | 6 => v.slot6
  | 7 => v.slot7

/-- `v` with the value of slot `k` replaced. -/
def PerSlot.set {α : Type} (v : PerSlot α) (k : Slot) (a : α) : PerSlot α :=
  match k with
  | 0 => { v with slot0 := a }
  | 1 => { v with slot1 := a }
  | 2 => { v with slot2 := a }
  | 3 => { v with slot3 := a }
  | 4 => { v with slot4 := a }
  | 5 => { v with slot5 := a }
  | 6 => { v with slot6 := a }
  | 7 => { v with slot7 := a }

/-- The value `f k` for each slot `k`. -/
def PerSlot.ofFn {α : Type} (f : Slot → α) : PerSlot α :=
  ⟨f 0, f 1, f 2, f 3, f 4, f 5, f 6, f 7⟩

/-- The same value for every slot. -/
def PerSlot.all {α : Type} (a : α) : PerSlot α :=
  PerSlot.ofFn fun _ => a

/-- The eight slots in ascending order. -/
def slots : List Slot := [0, 1, 2, 3, 4, 5, 6, 7]

end Sys2Proof
end

