-- ==== Sys2Proof/Config.lean ====
section
/-! DEFINITION. What is fixed for the machine as built. The manual leaves no value of this block open to the
implementation, so no uninterpreted constant stands here: every value a step produces is given by a rule or by the
command's own operand (INVENTORY.md, "What the manual leaves open"). -/

namespace Sys2Proof.Config

/-- The unit in which every timer of the model counts: half a millisecond, the finest time a rule names (R21, the
scan period code in steps of 0.5 ms). -/
def ticksPerMs : Nat := 2

/-- The bytes the memory port can address (section 11.2): offsets 0..32767. -/
def memoryBytes : Nat := 32768

end Sys2Proof.Config
end

