-- ==== Sys2Proof/Syntax.lean ====
section
/-! DEFINITION. The commands of the block: one constructor of `Instr` per row of spec/opcode_table.json. A command is
one event that reaches the station from outside its own state: an edge of RESET, bytes read on the memory port, the
running out of a timer, an answer of the sensor, an event of the line, or the delivery of the oldest received frame.

The table gives no row any operand bits. Where an event brings something with it (the bytes read, the contacts that
read closed, a sensor count, the bits read on the line) the constructor carries it as an operand; a
delivery (R153) carries nothing, since the frame it delivers stands in the receive buffer. -/

namespace Sys2Proof

/-- The four bit rates of the line (R146). -/
inductive LinkRate where
  | kbit250
  | kbit500
  | kbit1000
  | kbit2000
deriving DecidableEq, Repr

/-- A scan, or a part of one (R22). A scan whose steps follow one another with no other command between them is `whole`.
One that something else meets on its way, the station leaving RUN or a reset-pin event among them, comes in two parts: at
the expiry it is started, and its readings are applied and its transitions delivered where it is finished (log entry 21).
`closed` lists the contact indices whose raw reading in the scan is closed. -/
inductive ScanPart where
  | whole (closed : List Nat)
  | start
  | finish (closed : List Nat)
deriving DecidableEq, Repr

/-- The commands of the block, in the order of spec/opcode_table.json. -/
inductive Instr where
  /-- RESET_PIN_EVENT (R164): power-on, or a low level on RESET. -/
  | resetPinEvent
  /-- RESET_RISING_EDGE (R164). -/
  | resetRisingEdge
  /-- START_RECORD_HEADER_READ (R165): the first four bytes of the memory image have been read. -/
  | startRecordHeaderRead (b0 b1 b2 b3 : Byte)
  /-- START_RECORD_READ (R166): the rest of the memory image has been read; `rest` holds the bytes at offsets 4, 5, … -/
  | startRecordRead (rest : List Byte)
  /-- LISTEN_TIMER_EXPIRY (R150). -/
  | listenTimerExpiry
  /-- JOIN_TIMER_EXPIRY (R168). -/
  | joinTimerExpiry
  /-- SCAN_TIMER_EXPIRY (R22): the scan that an expiry of the scan timer brings, or one of its two parts. -/
  | scanTimerExpiry (scan : ScanPart)
  /-- SAMPLE_TIMER_EXPIRY (R35). -/
  | sampleTimerExpiry
  /-- SENSOR_SAMPLE (R36): the sensor answers with `count`, read as a signed 16-bit number. `late` says that it answers
  a conversion which an expiry of the sample timer has already taken as missed. -/
  | sensorSample (count : BitVec 16) (late : Bool)
  /-- HEARTBEAT_TIMER_EXPIRY (R46). -/
  | heartbeatTimerExpiry
  /-- STALE_TIMER_EXPIRY (R109). -/
  | staleTimerExpiry
  /-- LOST_TIMER_EXPIRY (R109). -/
  | lostTimerExpiry
  /-- BREATH_TIMER_EXPIRY (R118). -/
  | breathTimerExpiry
  /-- STACCATO_DEADLINE_EXPIRY (R85) of the roster entry that carries `tag`. -/
  | staccatoDeadlineExpiry (tag : Nat)
  /-- PRESENCE_TIMER_EXPIRY (R138). -/
  | presenceTimerExpiry
  /-- PEER_EXPIRY (R143) of the record of link address `address`. -/
  | peerExpiry (address : Nat)
  /-- ENGINE_LIVENESS_TIMER_EXPIRY (R134). -/
  | engineLivenessTimerExpiry
  /-- LINK_DROP_TIMER_EXPIRY (R158). -/
  | linkDropTimerExpiry
  /-- DRAIN_TIMER_EXPIRY (R173). -/
  | drainTimerExpiry
  /-- IDLE_MOMENT (R156) of the line. -/
  | idleMoment
  /-- ATTEMPT_END (R159): the attempt in flight has ended, the station having read `read` on the line, from the first
  preamble bit on, while it drove the frame (R156). -/
  | attemptEnd (read : List Bool)
  /-- FRAME_RECEIVED (R152): the line carried `bits` at `rate`, in the order of section 12.2, and was recessive after them;
  `afterIdle` says that it was idle before them (R147, R151). -/
  | frameReceived (rate : LinkRate) (bits : List Bool) (afterIdle : Bool)
  /-- BELLOWS_FRAME (R108): the oldest received frame, a BELLOWS frame, is delivered. -/
  | bellowsFrame
  /-- REGISTRATION_FRAME (R120): the oldest received frame, a REGISTRATION frame, is delivered. -/
  | registrationFrame
  /-- PRESENCE_FRAME (R142): the oldest received frame, a PRESENCE frame, is delivered. -/
  | presenceFrame
  /-- UNTAKEN_FRAME (R153): the oldest received frame, of a kind no block takes, is delivered. -/
  | untakenFrame
  /-- ENGINE_OFFER_PART (R124): the oldest received frame, an ENGINE OFFER, is delivered. -/
  | engineOfferPart
  /-- ENGINE_ALERT_EXHAUSTED (R132): the oldest received frame, an ENGINE ALERT with the EXHAUSTED flag, is delivered. -/
  | engineAlertExhausted
  /-- ENGINE_ALERT_RESTARTED (R135): the oldest received frame, an ENGINE ALERT with the RESTARTED flag, is delivered. -/
  | engineAlertRestarted
  /-- ENGINE_ALERT_PANIC (R136): the oldest received frame, an ENGINE ALERT with the PANIC flag, is delivered. -/
  | engineAlertPanic
  /-- QUERY_STATUS (R170): the oldest received frame, a QUERY with action STATUS, is delivered. -/
  | queryStatus
  /-- QUERY_PANIC (R170): the oldest received frame, a QUERY with action PANIC, is delivered. -/
  | queryPanic
  /-- QUERY_RELOAD (R173): the oldest received frame, a QUERY with action RELOAD, is delivered. -/
  | queryReload
  /-- QUERY_OTHER_ACTION (R170): the oldest received frame, a QUERY with any other action code, is delivered. -/
  | queryOtherAction
  /-- ENGINE_ALERT_NO_FLAG (R135): the oldest received frame, an ENGINE ALERT with no flag set, is delivered. -/
  | engineAlertNoFlag
deriving DecidableEq, Repr

end Sys2Proof
end

