-- ==== Sys2Proof/WellFormed.lean ====
section
/-! DEFINITION. Which commands can occur: the ranges the spec gives the operands. `exec` has a meaning for every term
of `Instr`; an ill-formed one only names an event that cannot happen. -/

namespace Sys2Proof

/-- Contact indices run from 0 to 191 (R20). -/
def closedOk (closed : List Nat) : Bool :=
  closed.all (· < 192)

/-- A scan reads contacts of the matrix (R20). -/
def ScanPart.wellFormed : ScanPart → Bool
  | .whole closed | .finish closed => closedOk closed
  | .start => true

/-- The longest frame on the line has 167 bits (section 10.3). -/
def frameBitsOk (bits : List Bool) : Bool :=
  bits.length ≤ 167

/-- The bytes at offsets 4..32767 of the memory image (section 11.2). -/
def imageRestOk (rest : List Byte) : Bool :=
  rest.length + 4 ≤ Config.memoryBytes

/-- The operands lie in the ranges of the rules. -/
def Instr.wellFormed : Instr → Bool
  | .startRecordRead rest => imageRestOk rest
  | .scanTimerExpiry scan => scan.wellFormed
  | .staccatoDeadlineExpiry tag => tag < 256
  | .peerExpiry address => 1 ≤ address && address ≤ 12
  | .frameReceived _ bits _ => frameBitsOk bits
  | .attemptEnd read => frameBitsOk read
  | .resetPinEvent | .resetRisingEdge | .startRecordHeaderRead _ _ _ _ | .listenTimerExpiry | .joinTimerExpiry
  | .sampleTimerExpiry | .sensorSample _ _ | .heartbeatTimerExpiry | .staleTimerExpiry | .lostTimerExpiry
  | .breathTimerExpiry | .presenceTimerExpiry | .engineLivenessTimerExpiry | .linkDropTimerExpiry | .drainTimerExpiry
  | .idleMoment | .bellowsFrame | .registrationFrame | .presenceFrame | .untakenFrame
  | .engineOfferPart | .engineAlertExhausted | .engineAlertRestarted | .engineAlertPanic | .queryStatus | .queryPanic
  | .queryReload | .queryOtherAction | .engineAlertNoFlag => true

end Sys2Proof
end

