-- ==== Sys2Proof/Machine/State.lean ====
section
/-! DEFINITION. The state of one RT2 station as plain data: the twelve blocks of section 0.3, each holding what its own
chapter's tables name, and the queue of commands that wait. `State.reset` is the station right after a reset-pin event,
RESET still low (the "After reset" columns). -/

namespace Sys2Proof.Machine

/-! ## Values shared by the blocks -/

/-- A timer: `none` is STOPPED, `some n` is RUNNING with `n` half milliseconds remaining. -/
abbrev Timer := Option Nat

/-- The sense of bellows travel. -/
inductive Direction where
  | push
  | pull
deriving DecidableEq, Repr

/-- The articulation of an entry, a request or a note (R6). -/
inductive Articulation where
  | sustain
  | staccato
  | swell
deriving DecidableEq, Repr

/-! ## Station Control (chapter 11) -/

/-- The five station states (section 11.1). -/
inductive StationState where
  | loading
  | joining
  | run
  | reloading
  | fault
deriving DecidableEq, Repr

/-- The fault reason (section 11.1). -/
inductive FaultReason where
  | noReason
  | blank
  | badRecord
  | addressConflict
deriving DecidableEq, Repr

/-- The seven status counters (R169), each 0..65535. -/
structure Counters where
  unplacedNotes : Nat
  mapMisses : Nat
  stolenNotes : Nat
  heldOverflows : Nat
  receiveErrors : Nat
  transmitFailures : Nat
  engineExhaustions : Nat
deriving DecidableEq, Repr

/-- The trouble set (R174): which of the four conditions stand. -/
structure TroubleSet where
  sensorLost : Bool
  bellowsLost : Bool
  engineAbsent : Bool
  linkDrop : Bool
deriving DecidableEq, Repr

/-- Station Control (section 11.1). -/
structure StationControl where
  station : StationState
  faultReason : FaultReason
  joinTimer : Timer
  drainTimer : Timer
  counters : Counters
  trouble : TroubleSet
deriving DecidableEq, Repr

/-! ## Start Loader (chapter 11) -/

/-- What the Start Loader waits for on the memory port (section 0.3, R165, R166). -/
inductive MemoryPort where
  | idle
  /-- The first four bytes are being read. -/
  | header
  /-- The rest of the record is being read; the four bytes read first are kept. -/
  | record (b0 b1 b2 b3 : Byte)
deriving DecidableEq, Repr

/-- The Start Loader, with the two values of the start record that no other block holds. -/
structure StartLoader where
  port : MemoryPort
  ownAddress : Nat
  slotUse : SlotMask
deriving DecidableEq, Repr

/-! ## Map Store (chapter 1) -/

/-- The fields a NOTE or CHORD entry is read for (section 1.2). -/
structure NoteFields where
  slot : Slot
  pitch : Nat
  articulation : Articulation
  /-- Staccato length code, in steps of 20 ms (R6). -/
  lengthCode : Nat
  levelOffset : Int
deriving DecidableEq, Repr

/-- A map entry (section 1.2). -/
inductive MapEntry where
  | empty
  | note (fields : NoteFields)
  | chord (fields : NoteFields) (template : Nat)
  | aliasTo (target : Nat)
deriving DecidableEq, Repr

/-- One note of a chord template; `fixedSlot` is `none` for the section SAME (section 1.3). -/
structure TemplateNote where
  interval : Int
  fixedSlot : Option Slot
deriving DecidableEq, Repr

/-- A bank pair (section 1.4). -/
structure BankPair where
  pushBase : Nat
  pullBase : Nat
  stride : Nat
  layerMask : BitVec 8
deriving DecidableEq, Repr

/-- A registration (section 1.4). -/
structure Registration where
  treble : BankPair
  bass : BankPair
  alt : BankPair
  transposition : Int
  gain : PerSlot Nat
  offset : PerSlot Int
deriving DecidableEq, Repr

/-- The Map Store (section 1.1). The loaded count N is the number of entries of `map`. -/
structure MapStore where
  map : List MapEntry
  templates : List (List TemplateNote)
  registrations : List Registration
deriving DecidableEq, Repr

/-! ## Matrix Scanner (chapter 2) -/

/-- The button kinds (section 2.5). -/
inductive ButtonKind where
  | treble
  | bass
  | register
  | shift
  | noKind
deriving DecidableEq, Repr

/-- One range of the button plan (section 2.5). -/
structure PlanRange where
  first : Nat
  count : Nat
  kind : ButtonKind
  ordinalBase : Nat
deriving DecidableEq, Repr

/-- One contact's debounced state and debounce counter (section 2.3). -/
structure Contact where
  pressed : Bool
  counter : Nat
deriving DecidableEq, Repr

/-- The Matrix Scanner: its geometry (section 2.1), plan, contacts 0..191, shift count and scan timer. `scanning` says
that a scan is under way, started and not yet finished (R22). -/
structure MatrixScanner where
  driveCount : Nat
  senseCount : Nat
  scanCode : Nat
  debounceCount : Nat
  plan : List PlanRange
  contacts : List Contact
  shiftCount : Nat
  scanTimer : Timer
  scanning : Bool
deriving DecidableEq, Repr

/-! ## Bellows Unit (chapter 3) -/

/-- The unit's settings (section 3.1); the sample period is in milliseconds. -/
structure BellowsSettings where
  role : Bool
  storedZero : Int
  shift : Nat
  deadBand : Nat
  hysteresis : Nat
  smoothing : Nat
  curve : List Nat
  samplePeriod : Nat
deriving DecidableEq, Repr

/-- The phases (section 3.2). -/
inductive BellowsPhase where
  | off
  | zeroing
  | measuring
deriving DecidableEq, Repr

/-- The Bellows Unit (sections 3.1 and 3.2). -/
structure BellowsUnit where
  settings : BellowsSettings
  phase : BellowsPhase
  zero : Int
  direction : Direction
  /-- Smoothed magnitude e. -/
  magnitude : Int
  level : Nat
  /-- The sensor state: `true` is SENSOR LOST, `false` is ACTIVE. -/
  sensorLost : Bool
  missed : Nat
  outstanding : Bool
  sampleTimer : Timer
  attempt : Nat
  samples : List Int
  heartbeat : Timer
deriving DecidableEq, Repr

/-! ## Group Follower (chapter 7) -/

inductive SourceMode where
  | localUnit
  | follow
deriving DecidableEq, Repr

inductive Freshness where
  | fresh
  | stale
  | lost
deriving DecidableEq, Repr

inductive RegistrationMode where
  | shared
  | own
deriving DecidableEq, Repr

/-- The Group Follower (section 7.1). -/
structure GroupFollower where
  ownGroup : Nat
  sourceMode : SourceMode
  source : Option Nat
  freshness : Freshness
  direction : Direction
  level : Nat
  staleTimer : Timer
  lostTimer : Timer
  registration : Nat
  registrationMode : RegistrationMode
deriving DecidableEq, Repr

/-! ## Placement Unit (chapters 4 and 7) -/

/-- The names of the bank pairs (R12). -/
inductive PairName where
  | treble
  | bass
  | alt
deriving DecidableEq, Repr

/-- The states of a held record (section 4.3). -/
inductive RecordState where
  | armed
  | placed
  | spent
deriving DecidableEq, Repr

/-- A held record (R50). -/
structure HeldRecord where
  contact : Nat
  ordinal : Nat
  pair : PairName
  direction : Direction
  state : RecordState
  tags : List Nat
deriving DecidableEq, Repr

/-- Where a note request comes from (R55). -/
inductive Origin where
  | placement
  | reversal
deriving DecidableEq, Repr

/-- A note request (R55); the staccato length is in milliseconds. -/
structure NoteRequest where
  rawPitch : Int
  slot : Slot
  articulation : Articulation
  staccatoMs : Nat
  levelOffset : Int
  origin : Origin
deriving DecidableEq, Repr

/-- The events that wait while a request is outstanding (R58). -/
inductive PlacementEvent where
  | press (contact ordinal : Nat) (kind : ButtonKind) (shiftHeld : Bool)
  | release (contact : Nat)
  | turn
  | fall
  | breathExpiry
deriving DecidableEq, Repr

/-- An operation suspended at its outstanding request (R57): the record whose request waits, that record's requests
still to be sent, and, for a reversal, the records whose third stage is still to come and the contacts of all the
reversed records (`none` for a placement). -/
structure Operation where
  record : Nat
  requests : List NoteRequest
  later : List (Nat × List NoteRequest)
  reversal : Option (List Nat)
deriving DecidableEq, Repr

/-- The Placement Unit (section 4.1, R116, R117). A request is outstanding while `suspended` holds an operation.
`owed` lists, in order, the contacts of the records that a rise made PLACED and whose placements are still to be made
(R58). The hold time is in milliseconds. -/
structure PlacementUnit where
  held : List HeldRecord
  breathTimer : Timer
  holdTime : Nat
  suspended : Option Operation
  owed : List Nat
  heldEvents : List PlacementEvent
  owedBow : Option (Direction × SlotMask)
deriving DecidableEq, Repr

/-! ## Note Roster (chapter 5) -/

inductive NoteState where
  | starting
  | sounding
  | ending
deriving DecidableEq, Repr

/-- The frame an entry has in the note queue (R72). -/
inductive QueuedFrame where
  | noFrame
  | start
  | refreshStart
  | stop
deriving DecidableEq, Repr

/-- The articulations of a NOTE START frame (R161). -/
inductive StartArticulation where
  | normal
  | reversal
  | refresh
  | staccato
  | swell
deriving DecidableEq, Repr

/-- The articulations of a NOTE END frame (R161). -/
inductive EndArticulation where
  | normal
  | reversal
  | fade
  | stolen
  | lost
  | panic
deriving DecidableEq, Repr

/-- A roster entry (R72). `soundingAtTurn` is the model's note of the first property of R115: the entry was SOUNDING
when the reversal now under way was taken. -/
structure RosterEntry where
  tag : Nat
  slot : Slot
  pitch : Nat
  articulation : Articulation
  holders : Nat
  state : NoteState
  queued : QueuedFrame
  endArticulation : Option EndArticulation
  deadline : Timer
  soundingAtTurn : Bool
deriving DecidableEq, Repr

/-- The Note Roster (section 5.1). `answerOwed` says that the answer owed is UNPLACED. -/
structure NoteRoster where
  roster : List RosterEntry
  nextTag : Nat
  waiting : Option NoteRequest
  answerOwed : Bool
deriving DecidableEq, Repr

/-! ## Level Unit (chapter 6) -/

/-- The Level Unit (R95). `justRestarted` says of a slot that a restart report wrote its LEVEL entry at this moment, so
that a recomputation that follows falls together with the report (R103, log entry 23). -/
structure LevelUnit where
  sectionLevel : PerSlot Nat
  slotCount : PerSlot Nat
  lastSent : PerSlot Nat
  removalPending : PerSlot Bool
  justRestarted : PerSlot Bool
  threshold : Nat
deriving DecidableEq, Repr

/-! ## Offer Unit (chapter 8) -/

/-- What the slot table holds for a detected slot (R122). -/
structure Detected where
  low : Nat
  high : Nat
  polyphony : Nat
deriving DecidableEq, Repr

/-- One offer of the engine (section 8.3). -/
structure Offer where
  family : Nat
  low : Nat
  high : Nat
  polyphony : Nat
deriving DecidableEq, Repr

/-- The assembly buffer (R122): the set being collected and its parts 1..n, each present or absent. -/
structure Assembly where
  setNumber : Nat
  parts : List (Option (List Offer))
deriving DecidableEq, Repr

inductive EngineState where
  | unheard
  | live
  | absent
deriving DecidableEq, Repr

/-- The Offer Unit (R122). A slot is undetected where `table` holds `none`. -/
structure OfferUnit where
  table : PerSlot (Option Detected)
  assembly : Option Assembly
  share : PerSlot Nat
  cap : PerSlot (Option Nat)
  limit : PerSlot Nat
  engine : EngineState
  livenessTimer : Timer
deriving DecidableEq, Repr

/-! ## Peer Table (chapter 9) -/

/-- The three values kept of a peer's latest PRESENCE (section 9.2). -/
structure Declaration where
  group : Nat
  role : Bool
  mask : SlotMask
deriving DecidableEq, Repr

/-- One peer record (section 9.2). `declared` is `none` while fields known is no. -/
structure PeerRecord where
  live : Bool
  expiry : Timer
  declared : Option Declaration
deriving DecidableEq, Repr

/-- The Peer Table: the presence timer and the records of link addresses 1..12, in that order. -/
structure PeerTable where
  presenceTimer : Timer
  peers : List PeerRecord
deriving DecidableEq, Repr

/-! ## Link Controller (chapter 10) -/

/-- A frame received whole and valid, as it waits in the receive buffer. -/
structure RxFrame where
  cls : Nat
  sender : Nat
  kind : Nat
  payload : List Byte
deriving DecidableEq, Repr

/-- The frames of the note queue (R154); a REFRESH-START is sent as a NOTE START. -/
inductive NoteFrame where
  | start (tag : Nat) (slot : Slot) (pitch velocity : Nat) (articulation : StartArticulation)
  | refreshStart (tag : Nat) (slot : Slot) (pitch velocity : Nat)
  | stop (tag : Nat) (articulation : EndArticulation)
  | bow (direction : Direction) (mask : SlotMask)
deriving DecidableEq, Repr

/-- A frame waiting in the note queue with its failure count. -/
structure QueueItem where
  frame : NoteFrame
  failures : Nat
deriving DecidableEq, Repr

/-- The responses to a query (R170). -/
inductive Response where
  | ack
  | nak
  | busy
deriving DecidableEq, Repr

/-- The frames a station sends (R161). -/
inductive OutFrame where
  | bellows (group : Nat) (direction : Direction) (level : Nat) (lost : Bool)
  | note (frame : NoteFrame)
  | registration (group number : Nat)
  | level (slot : Slot) (value : Nat)
  | status (response : Response) (station : StationState) (counters : Counters)
  | presence (group : Nat) (role : Bool) (mode : RegistrationMode) (mask : SlotMask) (registration : Nat)
      (station : StationState) (trouble : TroubleSet)
deriving DecidableEq, Repr

/-- The keys of the update table (R155). -/
inductive TableKey where
  | bellows
  | registration
  | level (slot : Slot)
  | status
  | presence
deriving DecidableEq, Repr

/-- A value of the update table with its failure count. -/
structure TableEntry where
  frame : OutFrame
  failures : Nat
deriving DecidableEq, Repr

/-- The update table (R155): 12 keys, each empty or holding one value. -/
structure UpdateTable where
  bellows : Option TableEntry
  registration : Option TableEntry
  levels : PerSlot (Option TableEntry)
  status : Option TableEntry
  presence : Option TableEntry
deriving DecidableEq, Repr

/-- Where the frame in flight comes from. `carried` is an attempt that a reload carries on to its end unreported
(R162): its frame stands no more in the queue or the table. -/
inductive TxSource where
  | queueHead
  | table (key : TableKey)
  | carried
deriving DecidableEq, Repr

/-- The attempt in flight: its frame, that frame's failure count at the start of the attempt, whether its table entry
was written during the attempt (R155), and whether a withdrawal or removal is pending against it (R160). -/
structure Attempt where
  source : TxSource
  frame : OutFrame
  failures : Nat
  rewritten : Bool
  withdraw : Bool
deriving DecidableEq, Repr

/-- The Link Controller (R146). The transmitter is FREE when `tx` is `none`. `driven` holds the bits of the frame in
flight as the station drives them (R156), and those of a frame whose attempt has just succeeded until the receiver has
taken it as the station's own transmission (R145); it is empty otherwise. Its two counters stand among the status
counters of Station Control. -/
structure LinkController where
  linkRate : Option LinkRate
  listening : Bool
  listenTimer : Timer
  rxBuffer : List RxFrame
  noteQueue : List QueueItem
  updates : UpdateTable
  tx : Option Attempt
  driven : List Bool
  linkDropTimer : Timer
deriving DecidableEq, Repr

/-! ## The station -/

/-- The state of one station. `resetLow` is the RESET pin held low (R164); `pending` is the queue of commands that
wait, first in, first out. -/
structure State where
  resetLow : Bool
  pending : List Instr
  stc : StationControl
  stl : StartLoader
  mst : MapStore
  msc : MatrixScanner
  blw : BellowsUnit
  grf : GroupFollower
  plu : PlacementUnit
  nrs : NoteRoster
  lvu : LevelUnit
  ofu : OfferUnit
  ptb : PeerTable
  lkc : LinkController
deriving DecidableEq, Repr

/-- The reasons a step could stop the machine: none. Every command of the table has an effect in every state, if only
that of an event that finds nothing to do, so no constructor is needed; that no step faults is safe, since the spec
names no stop of the station other than its own FAULT state, which is a value of `StationState`. -/
inductive Fault where
deriving DecidableEq, Repr

/-- The reasons a command could be refused. -/
inductive Refusal where
  /-- Raised only by an arm of `exec` that has no meaning yet. Safe: the run stops where the station would go on.
  No arm raises it in this model. -/
  | notModelled (mnemonic : String)
deriving DecidableEq, Repr

/-! ## The after-reset values -/

def Counters.zero : Counters := ⟨0, 0, 0, 0, 0, 0, 0⟩

def TroubleSet.empty : TroubleSet := ⟨false, false, false, false⟩

/-- Section 11.1, "After reset". -/
def StationControl.reset : StationControl where
  station := .loading
  faultReason := .noReason
  joinTimer := none
  drainTimer := none
  counters := .zero
  trouble := .empty

/-- The memory port waits for the rising edge of RESET (R164). DESIGN CHOICE (log entry 3): the own address before any
start record is read is 0, which is no station's address; the slot-use mask starts empty (R167). -/
def StartLoader.reset : StartLoader where
  port := .idle
  ownAddress := 0
  slotUse := 0

/-- Section 1.4, "After reset". -/
def BankPair.reset : BankPair where
  pushBase := 0
  pullBase := 0
  stride := 1
  layerMask := 0

/-- Section 1.4, "After reset". -/
def Registration.reset : Registration where
  treble := .reset
  bass := .reset
  alt := .reset
  transposition := 0
  gain := .all 64
  offset := .all 0

/-- R1: the map is EMPTY at every address with N = 0, every template is one note of interval 0 and section SAME. -/
def MapStore.reset : MapStore where
  map := []
  templates := List.replicate 16 [⟨0, none⟩]
  registrations := List.replicate 16 .reset

def Contact.reset : Contact := ⟨false, 0⟩

/-- Sections 2.1, 2.3 and 2.5, "After reset". DESIGN CHOICE (log entry 26): the button plan after reset is the empty list.
Sections 2.1 and 2.5 would also have it hold ranges of count 0 and kind NONE; either way no range covers any contact. -/
def MatrixScanner.reset : MatrixScanner where
  driveCount := 1
  senseCount := 1
  scanCode := 1
  debounceCount := 1
  plan := []
  contacts := List.replicate 192 .reset
  shiftCount := 0
  scanTimer := none
  scanning := false

/-- Section 3.1, "After reset". -/
def BellowsSettings.reset : BellowsSettings where
  role := false
  storedZero := 0
  shift := 0
  deadBand := 0
  hysteresis := 0
  smoothing := 1
  curve := List.replicate 17 0
  samplePeriod := 1

/-- Section 3.2, "After reset". -/
def BellowsUnit.reset : BellowsUnit where
  settings := .reset
  phase := .off
  zero := 0
  direction := .push
  magnitude := 0
  level := 0
  sensorLost := false
  missed := 0
  outstanding := false
  sampleTimer := none
  attempt := 0
  samples := []
  heartbeat := none

/-- Section 7.1, "After reset". -/
def GroupFollower.reset : GroupFollower where
  ownGroup := 1
  sourceMode := .follow
  source := none
  freshness := .lost
  direction := .push
  level := 0
  staleTimer := none
  lostTimer := none
  registration := 0
  registrationMode := .own

/-- Section 4.1 and the Remark of section 7.1. DESIGN CHOICE (log entry 3): the hold time before any start record is
read is 0. -/
def PlacementUnit.reset : PlacementUnit where
  held := []
  breathTimer := none
  holdTime := 0
  suspended := none
  owed := []
  heldEvents := []
  owedBow := none

/-- Section 5.1, "After reset". -/
def NoteRoster.reset : NoteRoster where
  roster := []
  nextTag := 0
  waiting := none
  answerOwed := false

/-- R95, "After reset". -/
def LevelUnit.reset : LevelUnit where
  sectionLevel := .all 0
  slotCount := .all 0
  lastSent := .all 0
  removalPending := .all false
  justRestarted := .all false
  threshold := 1

/-- R122, "After reset". -/
def OfferUnit.reset : OfferUnit where
  table := .all none
  assembly := none
  share := .all 0
  cap := .all none
  limit := .all 0
  engine := .unheard
  livenessTimer := none

def PeerRecord.absent : PeerRecord := ⟨false, none, none⟩

/-- Sections 9.1 and 9.2, "After reset". -/
def PeerTable.reset : PeerTable where
  presenceTimer := none
  peers := List.replicate 12 .absent

def UpdateTable.empty : UpdateTable where
  bellows := none
  registration := none
  levels := .all none
  status := none
  presence := none

/-- R146, "After reset". -/
def LinkController.reset : LinkController where
  linkRate := none
  listening := false
  listenTimer := none
  rxBuffer := []
  noteQueue := []
  updates := .empty
  tx := none
  driven := []
  linkDropTimer := none

/-- The station right after a reset-pin event, RESET still low (R164), with no command waiting. -/
def State.reset : State where
  resetLow := true
  pending := []
  stc := .reset
  stl := .reset
  mst := .reset
  msc := .reset
  blw := .reset
  grf := .reset
  plu := .reset
  nrs := .reset
  lvu := .reset
  ofu := .reset
  ptb := .reset
  lkc := .reset

end Sys2Proof.Machine
end

