-- ==== Sys2Proof/Machine/Ops.lean ====
section
/-! DEFINITION. The named operations the blocks share: replacing one block of the state, the timers, and the arithmetic
of section 0.5. -/

namespace Sys2Proof.Machine

/-! ## Replacing one block -/

/-- The state with the block `stc` replaced. -/
def State.setStc (s : State) (x : StationControl) : State :=
  { s with stc := x }

/-- The state with the block `stl` replaced. -/
def State.setStl (s : State) (x : StartLoader) : State :=
  { s with stl := x }

/-- The state with the block `mst` replaced. -/
def State.setMst (s : State) (x : MapStore) : State :=
  { s with mst := x }

/-- The state with the block `msc` replaced. -/
def State.setMsc (s : State) (x : MatrixScanner) : State :=
  { s with msc := x }

/-- The state with the block `blw` replaced. -/
def State.setBlw (s : State) (x : BellowsUnit) : State :=
  { s with blw := x }

/-- The state with the block `grf` replaced. -/
def State.setGrf (s : State) (x : GroupFollower) : State :=
  { s with grf := x }

/-- The state with the block `plu` replaced. -/
def State.setPlu (s : State) (x : PlacementUnit) : State :=
  { s with plu := x }

/-- The state with the block `nrs` replaced. -/
def State.setNrs (s : State) (x : NoteRoster) : State :=
  { s with nrs := x }

/-- The state with the block `lvu` replaced. -/
def State.setLvu (s : State) (x : LevelUnit) : State :=
  { s with lvu := x }

/-- The state with the block `ofu` replaced. -/
def State.setOfu (s : State) (x : OfferUnit) : State :=
  { s with ofu := x }

/-- The state with the block `ptb` replaced. -/
def State.setPtb (s : State) (x : PeerTable) : State :=
  { s with ptb := x }

/-- The state with the block `lkc` replaced. -/
def State.setLkc (s : State) (x : LinkController) : State :=
  { s with lkc := x }

/-! ## Timers -/

/-- A time in milliseconds as half milliseconds. -/
def ms (n : Nat) : Nat :=
  Config.ticksPerMs * n

/-- A timer is RUNNING. -/
def Timer.running (t : Timer) : Bool :=
  t.isSome

/-- Half a millisecond passes: a running timer loses it, and one that has run out stays due. -/
def Timer.tick (t : Timer) : Timer :=
  t.map (· - 1)

/-! ## Arithmetic words (section 0.5) -/

/-- clamp(lo..hi, x) on whole numbers. -/
def clampInt (lo hi x : Int) : Int :=
  if x < lo then lo else if x > hi then hi else x

/-- clamp(lo..hi, x) on natural numbers. -/
def clampNat (lo hi x : Nat) : Nat :=
  if x < lo then lo else if x > hi then hi else x

/-- n / d rounded to the nearest integer, halves away from zero, for d above 0. -/
def roundAway (n : Int) (d : Nat) : Int :=
  if n < 0 then -((2 * -n + d) / (2 * d)) else (2 * n + d) / (2 * d)

/-- n / d rounded to the nearest integer, halves up, for d above 0. -/
def roundUp (n : Int) (d : Nat) : Int :=
  (2 * n + d) / (2 * d)

/-- ceil(n / d) for d above 0. -/
def ceilDiv (n : Int) (d : Nat) : Int :=
  (n + d - 1) / d

/-! ## Slot masks -/

/-- The slot `k` belongs to the mask. -/
def SlotMask.has (m : SlotMask) (k : Slot) : Bool :=
  m.getLsbD k.val

/-- The mask of the slots that satisfy `p`. -/
def maskOf (p : Slot → Bool) : SlotMask :=
  slots.foldl (fun m k => if p k then m ||| BitVec.twoPow 8 k.val else m) 0#8

/-! ## Station states -/

/-- JOINING, RUN and RELOADING: the states in which frames are received and delivered and most timers act. -/
def State.working (s : State) : Bool :=
  match s.stc.station with
  | .joining | .run | .reloading => true
  | .loading | .fault => false

/-- RUN and RELOADING: the states in which the Placement Unit takes events (R49, R111, R172). -/
def State.playing (s : State) : Bool :=
  match s.stc.station with
  | .run | .reloading => true
  | .loading | .joining | .fault => false

/-- While RESET is low the station does nothing (R164): `f` acts only once RESET is high. -/
def State.whenUp (s : State) (f : State → State) : State :=
  if s.resetLow then s else f s

end Sys2Proof.Machine
end

