-- ==== Sys2Proof/Machine/Flags.lean ====
section
/-! DEFINITION. The status counters (R169), the trouble set, the three pins of Station Control (R174, section
11.1), the sensor port's select line (R32) and the scanner's drive lines (R20). -/

namespace Sys2Proof.Machine

/-- A status counter counted `n` times: it stays at 65535 (R169). -/
def satAdd (c n : Nat) : Nat :=
  min (c + n) 65535

/-- The state with the counters changed. -/
def State.mapCounters (s : State) (f : Counters → Counters) : State :=
  s.setStc { s.stc with counters := f s.stc.counters }

/-- A note request is answered UNPLACED (R56). -/
def State.countUnplaced (s : State) : State :=
  s.mapCounters fun c => { c with unplacedNotes := satAdd c.unplacedNotes 1 }

/-- `n` map misses (R15). -/
def State.countMisses (s : State) (n : Nat) : State :=
  s.mapCounters fun c => { c with mapMisses := satAdd c.mapMisses n }

/-- A NOTE END with articulation STOLEN is queued (R83). -/
def State.countStolen (s : State) : State :=
  s.mapCounters fun c => { c with stolenNotes := satAdd c.stolenNotes 1 }

/-- A press finds the held-button list full (R51). -/
def State.countHeldOverflow (s : State) : State :=
  s.mapCounters fun c => { c with heldOverflows := satAdd c.heldOverflows 1 }

/-- A frame is discarded on receipt (R151, R152). -/
def State.countReceiveError (s : State) : State :=
  s.mapCounters fun c => { c with receiveErrors := satAdd c.receiveErrors 1 }

/-- A frame is dropped after the retry limit (R158). -/
def State.countTransmitFailure (s : State) : State :=
  s.mapCounters fun c => { c with transmitFailures := satAdd c.transmitFailures 1 }

/-- An ENGINE ALERT with the EXHAUSTED flag is taken (R132). -/
def State.countExhaustion (s : State) : State :=
  s.mapCounters fun c => { c with engineExhaustions := satAdd c.engineExhaustions 1 }

/-- The state with the trouble set changed. -/
def State.mapTrouble (s : State) (f : TroubleSet → TroubleSet) : State :=
  s.setStc { s.stc with trouble := f s.stc.trouble }

/-- SENSOR LOST enters or leaves the trouble set (R38). -/
def State.setSensorLost (s : State) (b : Bool) : State :=
  s.mapTrouble fun t => { t with sensorLost := b }

/-- BELLOWS LOST enters or leaves the trouble set (R110). -/
def State.setBellowsLost (s : State) (b : Bool) : State :=
  s.mapTrouble fun t => { t with bellowsLost := b }

/-- ENGINE ABSENT enters or leaves the trouble set (R134). -/
def State.setEngineAbsent (s : State) (b : Bool) : State :=
  s.mapTrouble fun t => { t with engineAbsent := b }

/-- LINK DROP enters or leaves the trouble set (R158). -/
def State.setLinkDrop (s : State) (b : Bool) : State :=
  s.mapTrouble fun t => { t with linkDrop := b }

/-- Some condition stands. -/
def TroubleSet.any (t : TroubleSet) : Bool :=
  t.sensorLost || t.bellowsLost || t.engineAbsent || t.linkDrop

/-- The TROUBLE pin: active while the trouble set is not empty (R174), inactive while RESET is low (R164). -/
def State.troublePin (s : State) : Bool :=
  !s.resetLow && s.stc.trouble.any

/-- The FAULT pin: active in FAULT (section 11.1). -/
def State.faultPin (s : State) : Bool :=
  !s.resetLow && s.stc.station == .fault

/-- The RUN pin: active in RUN (section 11.1). -/
def State.runPin (s : State) : Bool :=
  !s.resetLow && s.stc.station == .run

/-- The sensor port's select line. A station without the bellows role holds it inactive (R32), and so does one whose
RESET is low, which does nothing (R164). DEDUCED (log entry 20): at a bellows-role station it is active while a
conversion is outstanding, since the unit starts a conversion by selecting the sensor (section 3.3). -/
def State.sensorSelect (s : State) : Bool :=
  !s.resetLow && s.blw.settings.role && s.blw.outstanding

/-- Drive line `line` of the contact matrix, 0..15, may be active. The lines above the drive count are held inactive
(R20), and a station whose RESET is low does nothing (R164). DEDUCED (log entry 22): the scan under way reads its contacts
through the configured lines, and no line is driven while no scan is under way; at which moment of the scan each of them
is active is left out (log entry 15). -/
def State.drives (s : State) (line : Nat) : Bool :=
  !s.resetLow && s.msc.scanning && line < s.msc.driveCount

end Sys2Proof.Machine
end

