-- ==== Sys2Proof/Machine/Operands.lean ====
section
/-! DEFINITION. Bits, bytes, the CRC, the link frame and its payloads (sections 10.3, 12.2, 12.3, R149, R151, R177), and
the places and forms of the start record's fields (section 12.1, R176). -/

namespace Sys2Proof.Machine

/-! ## Bits and bytes -/

/-- The number whose bits, most significant first, are `bits`. -/
def bitsToNat (bits : List Bool) : Nat :=
  bits.foldl (fun a b => 2 * a + b.toNat) 0

/-- The `w` low bits of `n`, most significant first. -/
def natToBits : Nat → Nat → List Bool
  | 0, _ => []
  | w + 1, n => n.testBit w :: natToBits w n

/-- Bytes in order, each from bit 7 to bit 0 (R177). -/
def bytesToBits : List Byte → List Bool
  | [] => []
  | b :: bs => natToBits 8 b.toNat ++ bytesToBits bs

/-- The first `n` bytes that `bits` spells, each from bit 7 to bit 0. -/
def bitsToBytes : Nat → List Bool → List Byte
  | 0, _ => []
  | n + 1, bits => BitVec.ofNat 8 (bitsToNat (bits.take 8)) :: bitsToBytes n (bits.drop 8)

/-- A byte read as a signed number. -/
def signedByte (b : Byte) : Int :=
  b.toInt

/-- Two bytes, most significant first. -/
def word16 (hi lo : Byte) : BitVec 16 :=
  hi ++ lo

/-! ## CRC (R149) -/

/-- One bit taken into the CRC register: the register's top bit is compared with the incoming bit, the register is
shifted left, and where the two differ it is combined with the polynomial x^16 + x^12 + x^5 + 1. -/
def crcBit (r : BitVec 16) (b : Bool) : BitVec 16 :=
  if r.msb == b then r <<< 1 else (r <<< 1) ^^^ 0x1021#16

/-- The CRC register after `bits`, taken in order from the register value `r`. -/
def crcFrom (r : BitVec 16) (bits : List Bool) : BitVec 16 :=
  bits.foldl crcBit r

/-- The CRC of a run of bits: the register starts at all ones. -/
def crc16 (bits : List Bool) : BitVec 16 :=
  crcFrom 0xFFFF#16 bits

/-- The CRC of a run of bytes, from the register value `r`. -/
def crcBytesFrom (r : BitVec 16) : List Byte → BitVec 16
  | [] => r
  | b :: bs => crcBytesFrom (crcFrom r (natToBits 8 b.toNat)) bs

/-! ## Frame kinds (R161) -/

def kindBellows : Nat := 0
def kindNoteStart : Nat := 1
def kindNoteEnd : Nat := 2
def kindBow : Nat := 3
def kindRegistration : Nat := 4
def kindLevel : Nat := 5
def kindAlert : Nat := 6
def kindQuery : Nat := 7
def kindStatus : Nat := 8
def kindPresence : Nat := 9
def kindOffer : Nat := 10

/-- The fixed class of a kind a station sends (R148, R161). -/
def classOf (kind : Nat) : Nat :=
  if kind = 0 then 0 else if kind ≤ 5 then 1 else if kind ≤ 8 then 2 else 3

/-- The payload length `len` is one the kind accepts (section 12.3, R151). -/
def lengthOk (kind len : Nat) : Bool :=
  match kind with
  | 0 => len == 3
  | 1 => len == 5
  | 2 => len == 2
  | 3 => len == 2
  | 4 => len == 2
  | 5 => len == 2
  | 6 => len == 2
  | 7 => len == 2
  | 8 => len == 15
  | 9 => len == 6
  | 10 => len == 2 || len == 6 || len == 10 || len == 14
  | _ => true

/-! ## Payloads sent (section 12.3, R177) -/

def byteOf (n : Nat) : Byte :=
  BitVec.ofNat 8 n

def Direction.code : Direction → Nat
  | .push => 0
  | .pull => 1

def StartArticulation.code : StartArticulation → Nat
  | .normal => 0
  | .reversal => 1
  | .refresh => 2
  | .staccato => 3
  | .swell => 4

def EndArticulation.code : EndArticulation → Nat
  | .normal => 0
  | .reversal => 1
  | .fade => 2
  | .stolen => 3
  | .lost => 4
  | .panic => 5

def Response.code : Response → Nat
  | .ack => 0
  | .nak => 1
  | .busy => 2

/-- The station state's code. LOADING and FAULT have none, since no frame is written in them (R138, R171; DESIGN CHOICE,
log entry 14). -/
def StationState.code : StationState → Nat
  | .joining => 0
  | .run => 1
  | .reloading => 2
  | .loading => 0
  | .fault => 0

/-- The trouble set's byte: bit 0 SENSOR LOST, 1 BELLOWS LOST, 2 ENGINE ABSENT, 3 LINK DROP. -/
def TroubleSet.code (t : TroubleSet) : Nat :=
  t.sensorLost.toNat + 2 * t.bellowsLost.toNat + 4 * t.engineAbsent.toNat + 8 * t.linkDrop.toNat

def RegistrationMode.code : RegistrationMode → Nat
  | .shared => 1
  | .own => 0

/-- A 16-bit counter, most significant byte first. -/
def counterBytes (n : Nat) : List Byte :=
  [byteOf (n / 256), byteOf n]

/-- The seven counters in the order of section 11.5. -/
def Counters.bytes (c : Counters) : List Byte :=
  counterBytes c.unplacedNotes ++ counterBytes c.mapMisses ++ counterBytes c.stolenNotes ++
    counterBytes c.heldOverflows ++ counterBytes c.receiveErrors ++ counterBytes c.transmitFailures ++
    counterBytes c.engineExhaustions

/-- The kind of a frame of the note queue. -/
def NoteFrame.kind : NoteFrame → Nat
  | .start .. => kindNoteStart
  | .refreshStart .. => kindNoteStart
  | .stop .. => kindNoteEnd
  | .bow .. => kindBow

/-- The payload of a frame of the note queue. -/
def NoteFrame.payload : NoteFrame → List Byte
  | .start tag slot pitch velocity art => [byteOf tag, byteOf slot.val, byteOf pitch, byteOf velocity, byteOf art.code]
  | .refreshStart tag slot pitch velocity =>
    [byteOf tag, byteOf slot.val, byteOf pitch, byteOf velocity, byteOf StartArticulation.refresh.code]
  | .stop tag art => [byteOf tag, byteOf art.code]
  | .bow dir mask => [byteOf dir.code, mask]

/-- The kind of a frame the station sends. -/
def OutFrame.kind : OutFrame → Nat
  | .bellows .. => kindBellows
  | .note f => f.kind
  | .registration .. => kindRegistration
  | .level _ _ => kindLevel
  | .status .. => kindStatus
  | .presence .. => kindPresence

/-- The payload of a frame the station sends. -/
def OutFrame.payload : OutFrame → List Byte
  | .bellows group dir lvl lost => [byteOf group, byteOf (dir.code + 2 * lost.toNat), byteOf lvl]
  | .note f => f.payload
  | .registration group number => [byteOf group, byteOf number]
  | .level slot value => [byteOf slot.val, byteOf value]
  | .status response station counters => byteOf (response.code + 4 * station.code) :: counters.bytes
  | .presence group role mode mask number station trouble =>
    [byteOf group, byteOf (role.toNat + 2 * mode.code), mask, byteOf number, byteOf station.code,
      byteOf trouble.code]

/-! ## The frame on the line (section 12.2) -/

/-- The preamble and the start bit. -/
def opening : List Bool :=
  [true, false, true, false, true, false, true, false, false]

/-- The arbitration field and the length (R148). -/
def headBits (cls sender kind len : Nat) : List Bool :=
  natToBits 2 cls ++ natToBits 4 sender ++ natToBits 4 kind ++ natToBits 4 len

/-- A frame as its sender drives it, bit 0 first. -/
def frameBits (cls sender kind : Nat) (payload : List Byte) : List Bool :=
  let covered := headBits cls sender kind payload.length ++ bytesToBits payload
  opening ++ covered ++ natToBits 16 (crc16 covered).toNat ++ List.replicate 8 true

/-- A frame the station sends, with its own address as sender. -/
def OutFrame.bits (ownAddress : Nat) (f : OutFrame) : List Bool :=
  frameBits (classOf f.kind) ownAddress f.kind f.payload

/-- A frame read to its end, before it is judged. -/
structure ReadFrame where
  frame : RxFrame
  length : Nat
  covered : List Bool
  crc : Nat
  endField : List Bool
deriving DecidableEq, Repr

/-- The `n` bits read from bit `i` on after an idle line. Where the activity `bits` has ended nothing drives the line, and
it reads recessive (R147). -/
def readBits (bits : List Bool) (i n : Nat) : List Bool :=
  ((bits ++ List.replicate 167 true).drop i).take n

/-- The frame that line activity carries: `none` where the activity does not begin with the preamble and the start bit.
A frame once begun is read to the end that its length field gives (R147, R151, log entry 4). -/
def readFrame (bits : List Bool) : Option ReadFrame :=
  let len := bitsToNat (readBits bits 19 4)
  if readBits bits 0 9 = opening then
    some {
      frame := {
        cls := bitsToNat (readBits bits 9 2)
        sender := bitsToNat (readBits bits 11 4)
        kind := bitsToNat (readBits bits 15 4)
        payload := bitsToBytes len (readBits bits 23 (8 * len))
      }
      length := len
      covered := readBits bits 9 (14 + 8 * len)
      crc := bitsToNat (readBits bits (23 + 8 * len) 16)
      endField := readBits bits (39 + 8 * len) 8
    }
  else none

/-- A frame once begun is valid when its length fits its kind, its CRC is the one computed and every bit of its end
field is recessive (R151). -/
def ReadFrame.valid (r : ReadFrame) : Bool :=
  lengthOk r.frame.kind r.length && r.crc == (crc16 r.covered).toNat && r.endField.all id

/-! ## Payloads read (section 12.3, R177) -/

/-- Byte `i` of a received payload. -/
def RxFrame.byte (f : RxFrame) (i : Nat) : Byte :=
  f.payload.getD i 0

/-- The low `n` bits of a byte. -/
def lowBits (n : Nat) (b : Byte) : Nat :=
  b.toNat % 2 ^ n

def directionOf (b : Bool) : Direction :=
  if b then .pull else .push

/-- An offer in its four bytes (sections 12.1 and 12.3). -/
def offerOf (family low high polyphony : Byte) : Offer where
  family := family.toNat
  low := lowBits 7 low
  high := lowBits 7 high
  polyphony := polyphony.toNat

/-- The offers that a run of bytes holds, four bytes each. -/
def offersOf : List Byte → List Offer
  | family :: low :: high :: polyphony :: rest => offerOf family low high polyphony :: offersOf rest
  | _ => []

/-! ## The memory image and the start record (section 12.1, R176) -/

/-- The byte at offset `i` of the memory image. A byte the memory does not answer reads FFH, since the data-in line is
left recessive (R165). -/
def imageByte (img : List Byte) (i : Nat) : Byte :=
  img.getD i 0xFF#8

/-- The first `n` bytes of the memory image. -/
def imagePrefix : Nat → List Byte → List Byte
  | 0, _ => []
  | n + 1, [] => 0xFF#8 :: imagePrefix n []
  | n + 1, b :: bs => b :: imagePrefix n bs

/-- The 16-bit field at offset `i`. -/
def imageWord (img : List Byte) (i : Nat) : BitVec 16 :=
  word16 (imageByte img i) (imageByte img (i + 1))

def imageNat (img : List Byte) (i : Nat) : Nat :=
  (imageByte img i).toNat

def imageInt (img : List Byte) (i : Nat) : Int :=
  signedByte (imageByte img i)

/-- The record length and the map count N, as stored. -/
def recordLength (img : List Byte) : Nat :=
  (imageWord img 0).toNat

def mapCount (img : List Byte) : Nat :=
  (imageWord img 4).toNat

/-- The structural checks (R166): the record lies inside the image, it is long enough for N, its CRC is right, and the
link address, the group and N are in range. -/
def goodRecord (img : List Byte) : Bool :=
  recordLength img ≤ Config.memoryBytes &&
  817 + 4 * mapCount img ≤ recordLength img &&
  imageWord img (recordLength img - 2) == crcBytesFrom 0xFFFF#16 (imagePrefix (recordLength img - 2) img) &&
  (1 ≤ imageNat img 2 && imageNat img 2 ≤ 12) &&
  (1 ≤ imageNat img 3 && imageNat img 3 ≤ 4) &&
  mapCount img ≤ 4096

/-- The 32-bit map entry at address `a`. -/
def entryWord (img : List Byte) (a : Nat) : BitVec 32 :=
  imageWord img (38 + 4 * a) ++ imageWord img (40 + 4 * a)

/-- The field of `n` bits whose lowest bit is bit `i`. -/
def field (w : BitVec 32) (i n : Nat) : Nat :=
  (w.extractLsb' i n).toNat

/-- Articulation code 3 is read as SUSTAIN (R6). -/
def articulationOf (code : Nat) : Articulation :=
  match code with
  | 1 => .staccato
  | 2 => .swell
  | _ => .sustain

/-- A map entry from its word; a staccato length code of 0 is stored as 1 (R6). -/
def mapEntryOf (w : BitVec 32) : MapEntry :=
  let fields : NoteFields := {
    slot := Fin.ofNat 8 (field w 27 3)
    pitch := field w 20 7
    articulation := articulationOf (field w 14 2)
    lengthCode := max 1 (field w 10 4)
    levelOffset := (w.extractLsb' 4 6).toInt
  }
  match field w 30 2 with
  | 0 => .empty
  | 1 => .note fields
  | 2 => .chord fields (field w 16 4)
  | _ => .aliasTo (field w 0 12)

def mapOf (img : List Byte) : List MapEntry :=
  (List.range (mapCount img)).map fun a => mapEntryOf (entryWord img a)

/-- Note `j` of the template at `off`; the interval is clamped and a section of 8 or more is SAME (R8). -/
def templateNoteOf (img : List Byte) (off j : Nat) : TemplateNote where
  interval := clampInt (-24) 24 (imageInt img (off + 1 + 2 * j))
  fixedSlot := if h : imageNat img (off + 2 + 2 * j) < 8 then some ⟨_, h⟩ else none

/-- The template at `off`: a note count of 0 is stored as 1 and one above 4 as 4 (R8). -/
def templateOf (img : List Byte) (off : Nat) : List TemplateNote :=
  (List.range (clampNat 1 4 (imageNat img off))).map (templateNoteOf img off)

def templatesOf (img : List Byte) : List (List TemplateNote) :=
  (List.range 16).map fun t => templateOf img (38 + 4 * mapCount img + 9 * t)

/-- A stride code (R9). -/
def strideOf (code : Nat) : Nat :=
  match code with
  | 0 => 1
  | 1 => 2
  | 2 => 4
  | _ => 8

/-- The bank pair at `off`; the bits above bit 11 of a base are ignored (R176). -/
def bankPairOf (img : List Byte) (off : Nat) : BankPair where
  pushBase := (imageWord img off).toNat % 4096
  pullBase := (imageWord img (off + 2)).toNat % 4096
  stride := strideOf (imageNat img (off + 4))
  layerMask := imageByte img (off + 5)

/-- The registration at `off`, its values clamped (R11). -/
def registrationOf (img : List Byte) (off : Nat) : Registration where
  treble := bankPairOf img off
  bass := bankPairOf img (off + 6)
  alt := bankPairOf img (off + 12)
  transposition := clampInt (-24) 24 (imageInt img (off + 18))
  gain := .ofFn fun k => clampNat 0 127 (imageNat img (off + 19 + 2 * k.val))
  offset := .ofFn fun k => clampInt (-64) 63 (imageInt img (off + 20 + 2 * k.val))

def registrationsOf (img : List Byte) : List Registration :=
  (List.range 16).map fun r => registrationOf img (182 + 4 * mapCount img + 35 * r)

/-- A button kind; 5..255 is read as NONE (R176). -/
def buttonKindOf (code : Nat) : ButtonKind :=
  match code with
  | 1 => .treble
  | 2 => .bass
  | 3 => .register
  | 4 => .shift
  | _ => .noKind

def planRangeOf (img : List Byte) (off : Nat) : PlanRange where
  first := imageNat img off
  count := imageNat img (off + 1)
  kind := buttonKindOf (imageNat img (off + 2))
  ordinalBase := (imageWord img (off + 3)).toNat % 4096

def planOf (img : List Byte) : List PlanRange :=
  (List.range 8).map fun k => planRangeOf img (742 + 4 * mapCount img + 5 * k)

/-- The default offer: an offer count of 9..255 is read as 8 (R176). -/
def defaultOffer (img : List Byte) : List Offer :=
  let off := 782 + 4 * mapCount img
  (List.range (min 8 (imageNat img off))).map fun j =>
    offerOf (imageByte img (off + 1 + 4 * j)) (imageByte img (off + 2 + 4 * j)) (imageByte img (off + 3 + 4 * j))
      (imageByte img (off + 4 + 4 * j))

/-- Every curve point below the point before it is raised to it; the raised value is compared with the next (R33). -/
def raiseCurve : Nat → List Nat → List Nat
  | _, [] => []
  | floor, c :: cs => max floor c :: raiseCurve (max floor c) cs

/-- The seventeen curve points, bits 6..0 of each byte. -/
def curveOf (img : List Byte) : List Nat :=
  raiseCurve 0 ((List.range 17).map fun i => lowBits 7 (imageByte img (21 + i)))

/-- Station flags bit 0: the bellows role (section 12.1). -/
def roleOf (img : List Byte) : Bool :=
  (imageByte img 6).getLsbD 0

/-- Station flags bit 1: the registration mode (section 12.1). -/
def modeOf (img : List Byte) : RegistrationMode :=
  if (imageByte img 6).getLsbD 1 then .shared else .own

/-- The rate code: `none` is AUTO, which 5..255 are read as too (R176). -/
def rateOf (img : List Byte) : Option LinkRate :=
  match imageNat img 7 with
  | 1 => some .kbit250
  | 2 => some .kbit500
  | 3 => some .kbit1000
  | 4 => some .kbit2000
  | _ => none

/-- The Bellows Unit's settings (R33). -/
def bellowsSettingsOf (img : List Byte) : BellowsSettings where
  role := roleOf img
  storedZero := (imageWord img 12).toInt
  shift := clampNat 0 7 (imageNat img 14)
  deadBand := imageNat img 15
  hysteresis := imageNat img 16
  smoothing := clampNat 1 6 (imageNat img 17)
  curve := curveOf img
  samplePeriod := clampNat 1 8 (imageNat img 18)

end Sys2Proof.Machine
end

