-- ==== Sys2Proof/Machine/Link.lean ====
section
/-! DEFINITION. What the Link Controller does for the blocks that own its frames: the note queue, the update table,
withdrawals and removals (sections 10.6 and 10.8). -/

namespace Sys2Proof.Machine

/-! ## The note queue (R154) -/

/-- The tag of the roster entry a note frame belongs to; a BOW belongs to none (R116). -/
def NoteFrame.tag? : NoteFrame → Option Nat
  | .start tag _ _ _ _ => some tag
  | .refreshStart tag _ _ _ => some tag
  | .stop tag _ => some tag
  | .bow _ _ => none

def NoteFrame.isBow : NoteFrame → Bool
  | .bow _ _ => true
  | _ => false

/-- The frame in flight is one of the note queue, and so its head: a frame is chosen as the head (R156) and stays in
its place until its attempt ends (R154). -/
def State.queueInFlight (s : State) : Bool :=
  match s.lkc.tx with
  | some a => a.source == .queueHead
  | none => false

/-- The frame in flight belongs to the roster entry that carries `tag`. -/
def State.tagInFlight (s : State) (tag : Nat) : Bool :=
  s.queueInFlight &&
    match s.lkc.noteQueue with
    | q :: _ => q.frame.tag? == some tag
    | [] => false

/-- The frame in flight is a BOW. -/
def State.bowInFlight (s : State) : Bool :=
  s.queueInFlight &&
    match s.lkc.noteQueue with
    | q :: _ => q.frame.isBow
    | [] => false

/-- The state with the note queue changed. -/
def State.mapQueue (s : State) (f : List QueueItem → List QueueItem) : State :=
  s.setLkc { s.lkc with noteQueue := f s.lkc.noteQueue }

/-- A frame is queued at the end of the list with failure count 0 (R154, R158). -/
def State.enqueue (s : State) (f : NoteFrame) : State :=
  s.mapQueue (· ++ [⟨f, 0⟩])

/-- The withdrawal of the frame of `tag`, which is not in flight: it leaves the queue (R160). -/
def State.withdrawTag (s : State) (tag : Nat) : State :=
  s.mapQueue fun q => q.filter fun i => i.frame.tag? != some tag

/-- The withdrawal of a BOW that is not in flight (R115). -/
def State.withdrawBow (s : State) : State :=
  s.mapQueue fun q => q.filter fun i => !i.frame.isBow

/-- The frame of `tag`, not in flight, is withdrawn and `f` takes its place in the queue (R81). -/
def State.replaceTag (s : State) (tag : Nat) (f : NoteFrame) : State :=
  s.mapQueue fun q => q.map fun i => if i.frame.tag? = some tag then ⟨f, 0⟩ else i

/-- A withdrawal asked of the frame in flight is held, or the one held is cancelled (R160). -/
def State.holdWithdrawal (s : State) (held : Bool) : State :=
  s.setLkc { s.lkc with tx := s.lkc.tx.map fun a => { a with withdraw := held } }

/-! ## The update table (R155) -/

/-- The entry of a key. -/
def UpdateTable.get (t : UpdateTable) : TableKey → Option TableEntry
  | .bellows => t.bellows
  | .registration => t.registration
  | .level k => t.levels.get k
  | .status => t.status
  | .presence => t.presence

/-- The table with the entry of one key replaced. -/
def UpdateTable.put (t : UpdateTable) (key : TableKey) (e : Option TableEntry) : UpdateTable :=
  match key with
  | .bellows => { t with bellows := e }
  | .registration => { t with registration := e }
  | .level k => { t with levels := t.levels.set k e }
  | .status => { t with status := e }
  | .presence => { t with presence := e }

/-- The entry of `key` is in flight. -/
def State.keyInFlight (s : State) (key : TableKey) : Bool :=
  match s.lkc.tx with
  | some a => a.source == .table key
  | none => false

/-- The state with the entry of `key` replaced. -/
def State.putEntry (s : State) (key : TableKey) (e : Option TableEntry) : State :=
  s.setLkc { s.lkc with updates := s.lkc.updates.put key e }

/-- A write (R155): it fills the entry or replaces its value, with failure count 0. Where the entry is in flight the
value stands for the next attempt, the attempt is left unchanged, and a pending removal is cancelled. DEDUCED (log entry
10): the attempt keeps the failure count of the value it carries. -/
def State.writeEntry (s : State) (key : TableKey) (f : OutFrame) : State :=
  let s1 := s.putEntry key (some ⟨f, 0⟩)
  if s.keyInFlight key then
    s1.setLkc { s1.lkc with tx := s1.lkc.tx.map fun a => { a with rewritten := true, withdraw := false } }
  else s1

/-- A removal (R160) of an entry that is present: it is emptied, or, in flight, the removal is held, and lapses where the
attempt ends in success or in a drop. DEDUCED (log entry 9): a newer value written earlier in the same attempt is then kept
(R155), though R101 calls the entry gone. -/
def State.removeEntry (s : State) (key : TableKey) : State :=
  if s.keyInFlight key then s.holdWithdrawal true else s.putEntry key none

end Sys2Proof.Machine
end

