-- ==== Sys2Proof/Machine/Levels.lean ====
section
/-! DEFINITION. The Level Unit (chapter 6): section levels, velocities, slot counts and LEVEL entries. -/

namespace Sys2Proof.Machine

/-- The registration numbered `r`. -/
def MapStore.registration (m : MapStore) (r : Nat) : Registration :=
  m.registrations.getD r .reset

/-- S = clamp(0..127, floor((L × g + 32) / 64) + o) (R96). -/
def sectionLevel (level gain : Nat) (offset : Int) : Nat :=
  (clampInt 0 127 (((level * gain + 32) / 64 : Nat) + offset)).toNat

/-- The velocity of a new note (R97). -/
def startVelocity (articulation : Articulation) (level : Nat) (offset : Int) : Nat :=
  match articulation with
  | .swell => 1
  | .sustain | .staccato => (clampInt 1 127 (level + offset)).toNat

/-- The velocity of a REFRESH-START (R98). -/
def refreshVelocity (articulation : Articulation) (level : Nat) : Nat :=
  match articulation with
  | .swell => 1
  | .sustain | .staccato => (clampInt 1 127 level).toNat

/-- The eight section levels from the group level and the current registration (R96). -/
def State.sectionLevels (s : State) : PerSlot Nat :=
  let reg := s.mst.registration s.grf.registration
  .ofFn fun k => sectionLevel s.grf.level (reg.gain.get k) (reg.offset.get k)

/-- LEVEL(k, S) is written and last-sent becomes S (R100, R102). -/
def State.writeLevel (s : State) (k : Slot) : State :=
  let level := s.lvu.sectionLevel.get k
  (s.writeEntry (.level k) (.level k level)).setLvu { s.lvu with lastSent := s.lvu.lastSent.set k level }

/-- The section level `level` calls for a LEVEL write: it has moved by the threshold from the value last sent, or it
stands at an end and differs from it (R100). -/
def levelDue (threshold level last : Nat) : Bool :=
  threshold ≤ max level last - min level last || (level == 0 || level == 127) && level != last

/-- The slot's section level calls for a LEVEL write (R100). Where the recomputation falls together with a restart report
that wrote the slot's entry, any change of S does, so that the entry ends at the present S (R103). DESIGN CHOICE (log entry
23): the two fall together until half a millisecond passes or an attempt begins. -/
def LevelUnit.due (l : LevelUnit) (k : Slot) : Bool :=
  levelDue (if l.justRestarted.get k then 1 else l.threshold) (l.sectionLevel.get k) (l.lastSent.get k)

/-- One slot examined for a LEVEL write (R100). -/
def State.examineLevel (s : State) (k : Slot) : State :=
  if 0 < s.lvu.slotCount.get k ∧ s.lvu.due k then s.writeLevel k else s

/-- A recomputation of the section levels, and the examination of the slots that follows it (R96, R100). -/
def State.recomputeLevels (s : State) : State :=
  slots.foldl State.examineLevel (s.setLvu { s.lvu with sectionLevel := s.sectionLevels })

/-- A restart report met by one slot (R102): with a count above 0 its LEVEL entry is written, and a recomputation at this
moment falls together with the report (R103). -/
def State.restartLevel (s : State) (k : Slot) : State :=
  if 0 < s.lvu.slotCount.get k then
    let s1 := s.writeLevel k
    s1.setLvu { s1.lvu with justRestarted := s1.lvu.justRestarted.set k true }
  else s

/-- The report that the engine has restarted (R102). -/
def State.restartLevels (s : State) : State :=
  slots.foldl State.restartLevel s

/-- The moment of a restart report is over: no later recomputation falls together with it (R103, log entry 23). -/
def LevelUnit.momentPasses (l : LevelUnit) : LevelUnit :=
  { l with justRestarted := .all false }

/-- STARTING and SOUNDING entries count against the limit of their slot; ENDING entries do not (R72). -/
def RosterEntry.active (e : RosterEntry) : Bool :=
  e.state != .ending

/-- The number of STARTING and SOUNDING entries in a slot. -/
def NoteRoster.count (n : NoteRoster) (k : Slot) : Nat :=
  (n.roster.filter fun e => e.slot == k && e.active).length

/-- The slot's count falls to 0: its LEVEL entry is removed, or its removal waits on the attempt in flight (R101). -/
def State.removeLevel (s : State) (k : Slot) : State :=
  match s.lkc.updates.get (.level k) with
  | none => s
  | some _ =>
    if s.keyInFlight (.level k) then
      (s.removeEntry (.level k)).setLvu { s.lvu with removalPending := s.lvu.removalPending.set k true }
    else s.removeEntry (.level k)

/-- The slot's count rises from 0: last-sent becomes the section level, and a removal that is still pending is answered
by a write (R99, R101). The removal of an entry that an earlier restart report wrote was asked as the count fell to 0. -/
def State.levelRises (s : State) (k : Slot) : State :=
  let s1 := s.setLvu { s.lvu with
    lastSent := s.lvu.lastSent.set k (s.lvu.sectionLevel.get k)
    justRestarted := s.lvu.justRestarted.set k false }
  if s.lvu.removalPending.get k then
    let s2 := s1.setLvu { s1.lvu with removalPending := s1.lvu.removalPending.set k false }
    s2.writeLevel k
  else s1

/-- The Note Roster reports the count of a slot (R93), taken as R99 and R101 state. -/
def State.reportCount (s : State) (k : Slot) : State :=
  let old := s.lvu.slotCount.get k
  let new := s.nrs.count k
  let s1 := s.setLvu { s.lvu with slotCount := s.lvu.slotCount.set k new }
  if old = 0 ∧ 0 < new then s1.levelRises k
  else if 0 < old ∧ new = 0 then s1.removeLevel k
  else s1

/-- The end of an attempt of LEVEL(k) is reported: no removal is pending any more (R101). -/
def State.levelAttemptEnded (s : State) (k : Slot) : State :=
  s.setLvu { s.lvu with removalPending := s.lvu.removalPending.set k false }

end Sys2Proof.Machine
end

