-- ==== Sys2Proof/Machine/Lookup.lean ====
section
/-! DEFINITION. The Map Store's lookups (chapter 1). -/

namespace Sys2Proof.Machine

/-- A note item of a lookup's result (R16); the staccato length is in milliseconds. -/
structure NoteItem where
  pitch : Nat
  interval : Int
  slot : Slot
  articulation : Articulation
  staccatoMs : Nat
  levelOffset : Int
deriving DecidableEq, Repr

/-- A lookup's result (R16), with the map misses it counted (R15). -/
structure LookupResult where
  transposition : Int
  items : List NoteItem
  misses : Nat
deriving DecidableEq, Repr

/-- The item of one note of an entry (R4, R5, R6). -/
def NoteFields.item (f : NoteFields) (interval : Int) (slot : Slot) : NoteItem where
  pitch := f.pitch
  interval := interval
  slot := slot
  articulation := f.articulation
  staccatoMs := 20 * f.lengthCode
  levelOffset := f.levelOffset

/-- The template numbered `t`. -/
def MapStore.template (m : MapStore) (t : Nat) : List TemplateNote :=
  m.templates.getD t []

/-- What a NOTE, CHORD or EMPTY entry contributes (R3, R4, R5); an ALIAS entry contributes nothing of its own. -/
def MapStore.itemsOf (m : MapStore) : MapEntry → Option (List NoteItem)
  | .empty => some []
  | .note f => some [f.item 0 f.slot]
  | .chord f t => some ((m.template t).map fun n => f.item n.interval (n.fixedSlot.getD f.slot))
  | .aliasTo _ => none

/-- What a lookup that reaches address `a` finds: the items it contributes, or `none` for a map miss (R2, R7, R14). -/
def MapStore.reach (m : MapStore) (a : Nat) : Option (List NoteItem) :=
  match m.map[a]? with
  | none => none
  | some (.aliasTo t) =>
    match m.map[t]? with
    | none => none
    | some e => m.itemsOf e
  | some e => m.itemsOf e

/-- The bank pair of a registration by name (R12). -/
def Registration.pair (r : Registration) : PairName → BankPair
  | .treble => r.treble
  | .bass => r.bass
  | .alt => r.alt

/-- The base of a lookup (R13). -/
def BankPair.base (p : BankPair) : Direction → Nat
  | .push => p.pushBase
  | .pull => p.pullBase

/-- The active layers in ascending order: the set bits of the layer mask below the stride (R10). -/
def BankPair.activeLayers (p : BankPair) : List Nat :=
  (List.range 8).filter fun j => j < p.stride && p.layerMask.getLsbD j

/-- The layer addresses of a lookup, in order (R14). -/
def BankPair.addresses (p : BankPair) (ordinal : Nat) (d : Direction) : List Nat :=
  p.activeLayers.map fun j => p.base d + ordinal * p.stride + j

/-- A lookup (R16): every layer address in order, each contributing its items or one miss (R14, R15). -/
def MapStore.lookup (m : MapStore) (ordinal : Nat) (pair : PairName) (d : Direction) (reg : Nat) : LookupResult :=
  let r := m.registration reg
  let found := ((r.pair pair).addresses ordinal d).map m.reach
  { transposition := r.transposition
    items := found.flatMap fun f => f.getD []
    misses := (found.filter Option.isNone).length }

end Sys2Proof.Machine
end

