-- ==== Sys2Proof/Machine/Roster.lean ====
section
/-! DEFINITION. The Note Roster (chapter 5): effective slots and folding, requests, endings, holders, victims, trims,
refresh and roster panic. -/

namespace Sys2Proof.Machine

/-! ## Entries -/

/-- The entry that carries a tag. -/
def State.entry? (s : State) (tag : Nat) : Option RosterEntry :=
  s.nrs.roster.find? (·.tag == tag)

/-- The roster with the entry of a tag changed. -/
def State.mapEntry (s : State) (tag : Nat) (f : RosterEntry → RosterEntry) : State :=
  s.setNrs { s.nrs with roster := s.nrs.roster.map fun e => if e.tag = tag then f e else e }

/-- The entry of a tag is freed: it leaves the roster (R71). -/
def State.freeEntry (s : State) (tag : Nat) : State :=
  s.setNrs { s.nrs with roster := s.nrs.roster.filter (·.tag != tag) }

/-- The oldest STARTING or SOUNDING entry of a slot. -/
def State.oldestIn (s : State) (k : Slot) : Option RosterEntry :=
  s.nrs.roster.find? fun e => e.slot == k && e.active

/-- The oldest STARTING or SOUNDING entry of any slot. -/
def State.oldest (s : State) : Option RosterEntry :=
  s.nrs.roster.find? (·.active)

/-! ## The effective slot and the fold (sections 4.5 and 4.6) -/

/-- The two hops of a slot's fallback chain (R60). -/
def fallback : Slot → Slot × Slot
  | 0 => (2, 4)
  | 1 => (5, 3)
  | 2 => (0, 4)
  | 3 => (1, 5)
  | 4 => (2, 0)
  | 5 => (1, 3)
  | 6 => (5, 1)
  | 7 => (1, 5)

/-- The slot with its detection, where it is detected. -/
def OfferUnit.detected (o : OfferUnit) (k : Slot) : Option (Slot × Detected) :=
  (o.table.get k).map fun d => (k, d)

/-- The effective slot of a request: the first detected of the requested slot and its two hops (R60, R61). -/
def OfferUnit.effective (o : OfferUnit) (k : Slot) : Option (Slot × Detected) :=
  match o.detected k with
  | some d => some d
  | none =>
    match o.detected (fallback k).1 with
    | some d => some d
    | none => o.detected (fallback k).2

/-- The fold of a raw pitch into lo..hi (R62). -/
def fold (q : Int) (lo hi : Nat) : Int :=
  let q1 := if q > hi then q - 12 * ceilDiv (q - hi) 12 else q
  let q2 := if q1 < lo then q1 + 12 * ceilDiv (lo - q1) 12 else q1
  if q2 > hi then hi else q2

/-- The resolution of a request: its effective slot and folded pitch, or `none` when its chain has no detected slot
(R60, R62, R112). -/
def OfferUnit.resolve (o : OfferUnit) (r : NoteRequest) : Option (Slot × Nat) :=
  (o.effective r.slot).map fun d => (d.1, (fold r.rawPitch d.2.low d.2.high).toNat)

/-! ## Ending an entry (section 5.4) -/

/-- A NOTE END is queued at the end of the note queue and counted in STOLEN NOTES if it is STOLEN (R81, R83). -/
def State.countIfStolen (s : State) (a : EndArticulation) : State :=
  if a = .stolen then s.countStolen else s

/-- The entry becomes ENDING with the end articulation recorded and its deadline removed (R81). -/
def RosterEntry.toEnding (e : RosterEntry) (a : EndArticulation) : RosterEntry :=
  { e with state := .ending, endArticulation := some a, deadline := none }

/-- The NOTE END of an entry is queued at the end of the note queue (R81, R86, R88). -/
def State.queueStop (s : State) (tag : Nat) (a : EndArticulation) : State :=
  ((s.mapEntry tag fun e => { e with queued := .stop }).enqueue (.stop tag a)).countIfStolen a

/-- Ending the entry of a tag with an end articulation (R81). An ENDING entry is left as it stands. -/
def State.endEntry (s : State) (tag : Nat) (a : EndArticulation) : State :=
  match s.entry? tag with
  | none => s
  | some e =>
    match e.state, e.queued with
    | .ending, _ => s
    | .starting, _ =>
      if s.tagInFlight tag then
        ((s.mapEntry tag (·.toEnding a)).holdWithdrawal true).reportCount e.slot
      else ((s.withdrawTag tag).freeEntry tag).reportCount e.slot
    | .sounding, .refreshStart =>
      if s.tagInFlight tag then
        ((s.mapEntry tag (·.toEnding a)).holdWithdrawal true).reportCount e.slot
      else
        (((s.mapEntry tag fun e => { e.toEnding a with queued := .stop }).replaceTag tag (.stop tag a)).countIfStolen
          a).reportCount e.slot
    | .sounding, _ => ((s.mapEntry tag (·.toEnding a)).queueStop tag a).reportCount e.slot

/-- Every occurrence of a tag is taken out of every tag list (R59). -/
def State.removeTag (s : State) (tag : Nat) : State :=
  s.setPlu { s.plu with held := s.plu.held.map fun r => { r with tags := r.tags.filter (· != tag) } }

/-- The entry of a tag is ended as a victim: its tag leaves every tag list at that moment (R83). -/
def State.endVictim (s : State) (tag : Nat) (a : EndArticulation) : State :=
  (s.endEntry tag a).removeTag tag

/-- A holder release (R82). -/
def State.releaseHolder (s : State) (a : EndArticulation) (tag : Nat) : State :=
  match s.entry? tag with
  | none => s
  | some e =>
    if e.active then
      let s1 := s.mapEntry tag fun e => { e with holders := e.holders - 1 }
      if e.holders ≤ 1 then s1.endEntry tag a else s1
    else s

/-! ## Requests (section 5.3) -/

/-- What a request is answered (R56), or that it waits (R77). -/
inductive Answer where
  | tag (t : Nat)
  | unplaced
  | waits
deriving DecidableEq, Repr

/-- The tag for a new entry: the first, counting upward from the next-tag counter and wrapping at 255, that no entry
carries (R73). -/
def NoteRoster.freeTag (n : NoteRoster) : Nat :=
  (((List.range 256).map fun i => (n.nextTag + i) % 256).find? fun t => n.roster.all (·.tag != t)).getD 0

/-- The deadline of an entry that takes a request's articulation (R84). -/
def NoteRequest.deadline (r : NoteRequest) : Timer :=
  if r.articulation = .staccato then some (ms r.staccatoMs) else none

/-- The articulation of the NOTE START of a new note (R80). -/
def NoteRequest.startArticulation (r : NoteRequest) : StartArticulation :=
  match r.origin, r.articulation with
  | .reversal, _ => .reversal
  | .placement, .sustain => .normal
  | .placement, .staccato => .staccato
  | .placement, .swell => .swell

/-- A new entry is appended and its NOTE START queued; the velocity is asked for before the count's rise is reported
(R80, R93). -/
def State.newEntry (s : State) (r : NoteRequest) (k : Slot) (pitch : Nat) : Answer × State :=
  let tag := s.nrs.freeTag
  let velocity := startVelocity r.articulation (s.lvu.sectionLevel.get k) r.levelOffset
  let e : RosterEntry := {
    tag := tag
    slot := k
    pitch := pitch
    articulation := r.articulation
    holders := 1
    state := .starting
    queued := .start
    endArticulation := none
    deadline := r.deadline
    soundingAtTurn := false
  }
  let s1 := s.setNrs { s.nrs with roster := s.nrs.roster ++ [e], nextTag := (tag + 1) % 256 }
  (.tag tag, (s1.enqueue (.start tag k pitch velocity r.startArticulation)).reportCount k)

/-- The capacity step of a new note (R79). -/
def State.capacityStep (s : State) (r : NoteRequest) (k : Slot) (pitch : Nat) : Answer × State :=
  if s.nrs.roster.length < 32 then s.newEntry r k pitch
  else
    match s.oldest with
    | none => (.unplaced, s)
    | some v =>
      let s1 := s.endVictim v.tag .stolen
      if s1.nrs.roster.length < 32 then s1.newEntry r k pitch else (.unplaced, s1)

/-- The slot step of a new note (R78). -/
def State.newNote (s : State) (r : NoteRequest) (k : Slot) (pitch : Nat) : Answer × State :=
  if s.nrs.count k < s.ofu.limit.get k then s.capacityStep r k pitch
  else if s.ofu.limit.get k = 0 then (.unplaced, s)
  else
    match s.oldestIn k with
    | none => s.capacityStep r k pitch
    | some v => (s.endVictim v.tag .stolen).capacityStep r k pitch

/-- How an entry's articulation and a request's combine in a merge (R75). -/
def RosterEntry.merged (e : RosterEntry) (r : NoteRequest) : RosterEntry :=
  if e.articulation = .staccato ∧ r.articulation = .sustain then
    { e with holders := e.holders + 1, articulation := .sustain, deadline := none }
  else { e with holders := e.holders + 1 }

/-- The revived entry (R76). -/
def RosterEntry.revived (e : RosterEntry) (r : NoteRequest) : RosterEntry :=
  { e with
    state := if e.queued = .start then .starting else .sounding
    queued := if e.queued = .stop then .noFrame else e.queued
    endArticulation := none
    holders := 1
    articulation := r.articulation
    deadline := r.deadline }

/-- A revival (R76): a queued END is withdrawn, an owed end is cancelled with its pending withdrawal; a slot at its
limit answers UNPLACED. -/
def State.revive (s : State) (r : NoteRequest) (e : RosterEntry) : Answer × State :=
  if s.nrs.count e.slot < s.ofu.limit.get e.slot then
    let s1 := if e.queued = .stop then s.withdrawTag e.tag else s.holdWithdrawal false
    (.tag e.tag, (s1.mapEntry e.tag (·.revived r)).reportCount e.slot)
  else (.unplaced, s)

/-- The handling of a note request (R74). -/
def State.handleRequest (s : State) (r : NoteRequest) : Answer × State :=
  match s.ofu.resolve r with
  | none => (.unplaced, s)
  | some (k, pitch) =>
    match s.nrs.roster.find? fun e => e.slot == k && e.pitch == pitch with
    | none => s.newNote r k pitch
    | some e =>
      if e.active then (.tag e.tag, s.mapEntry e.tag (·.merged r))
      else if e.queued = .stop ∧ s.tagInFlight e.tag = true then
        (.waits, s.setNrs { s.nrs with waiting := some r })
      else s.revive r e

/-- A request handled, with UNPLACED NOTES counted for an UNPLACED answer (R56). -/
def State.answerRequest (s : State) (r : NoteRequest) : Answer × State :=
  match s.handleRequest r with
  | (.unplaced, t) => (.unplaced, t.countUnplaced)
  | a => a

/-! ## Trims, refresh and roster panic (sections 5.7 to 5.9) -/

/-- The oldest STARTING or SOUNDING entry of the slot is ended as a victim, `n` times over (R89). -/
def State.trimOldest (k : Slot) (a : EndArticulation) : Nat → State → State
  | 0, s => s
  | n + 1, s =>
    match s.oldestIn k with
    | none => s
    | some v => State.trimOldest k a n (s.endVictim v.tag a)

/-- A slot is trimmed until its count equals its limit: with LOST where the slot is undetected, with STOLEN otherwise
(R89). -/
def State.trimSlot (s : State) (k : Slot) : State :=
  let a : EndArticulation := if (s.ofu.table.get k).isNone then .lost else .stolen
  State.trimOldest k a (s.nrs.count k - s.ofu.limit.get k) s

/-- The slots whose limit is below their count are trimmed in ascending order, each whole before the next (R90). -/
def State.trimAll (s : State) : State :=
  slots.foldl State.trimSlot s

/-- One entry refreshed (R91). -/
def State.refreshEntry (s : State) (e : RosterEntry) : State :=
  if e.state = .sounding ∧ e.queued = .noFrame then
    let velocity := refreshVelocity e.articulation (s.lvu.sectionLevel.get e.slot)
    (s.mapEntry e.tag fun e => { e with queued := .refreshStart }).enqueue
      (.refreshStart e.tag e.slot e.pitch velocity)
  else s

/-- The refresh after an engine restart: every SOUNDING entry with no queued frame gets a REFRESH-START, oldest first
(R91). -/
def State.refresh (s : State) : State :=
  s.nrs.roster.foldl State.refreshEntry s

/-- Roster panic (R92): every STARTING and SOUNDING entry is ended with PANIC in roster order, and a waiting request is
owed UNPLACED. -/
def State.rosterPanic (s : State) : State :=
  let s1 := s.nrs.roster.foldl (fun t e => t.endEntry e.tag .panic) s
  s1.setNrs { s1.nrs with answerOwed := s1.nrs.waiting.isSome }

end Sys2Proof.Machine
end

