-- ==== Sys2Proof/Machine/Placement.lean ====
section
/-! DEFINITION. The Placement Unit (chapter 4, and sections 7.4 to 7.6 and 11.7): presses and releases, placements,
reversals, the breath hold, panics, and the suspension of an operation at a request that waits. -/

namespace Sys2Proof.Machine

/-! ## The held-button list -/

/-- The record of a contact. -/
def State.record? (s : State) (contact : Nat) : Option HeldRecord :=
  s.plu.held.find? (·.contact == contact)

/-- The held-button list with the record of a contact changed. -/
def State.mapRecord (s : State) (contact : Nat) (f : HeldRecord → HeldRecord) : State :=
  s.setPlu { s.plu with held := s.plu.held.map fun r => if r.contact = contact then f r else r }

/-- A tag answered is appended to the record's tag list (R54). -/
def State.appendTag (s : State) (contact tag : Nat) : State :=
  s.mapRecord contact fun r => { r with tags := r.tags ++ [tag] }

/-- An operation is suspended at its outstanding request (R57). -/
def State.isSuspended (s : State) : Bool :=
  s.plu.suspended.isSome

/-! ## Requests -/

/-- The request formed from one note item and the transposition of its lookup (R55). -/
def NoteItem.request (i : NoteItem) (transposition : Int) (origin : Origin) : NoteRequest where
  rawPitch := i.pitch + i.interval + transposition
  slot := i.slot
  articulation := i.articulation
  staccatoMs := i.staccatoMs
  levelOffset := i.levelOffset
  origin := origin

/-- The requests of a lookup, in the order of its items (R19, R54). -/
def LookupResult.requests (l : LookupResult) (origin : Origin) : List NoteRequest :=
  l.items.map fun i => i.request l.transposition origin

/-- Requests of one record sent in turn, each after the answer to the one before (R54, R57). The second result is
`none` when the last has been answered, and otherwise the requests that follow the one that waits. -/
def State.sendRequests (contact : Nat) : List NoteRequest → State → State × Option (List NoteRequest)
  | [], s => (s, none)
  | r :: rs, s =>
    match s.answerRequest r with
    | (.tag t, s1) => State.sendRequests contact rs (s1.appendTag contact t)
    | (.unplaced, s1) => State.sendRequests contact rs s1
    | (.waits, s1) => (s1, some rs)

/-- The lookup of a record with the group direction and registration of the moment (R54, R112). -/
def State.lookupRecord (s : State) (r : HeldRecord) : LookupResult :=
  s.mst.lookup r.ordinal r.pair s.grf.direction s.grf.registration

/-- The placing of a record (R54): it becomes PLACED, is looked up, and its requests are sent. -/
def State.placeRecord (s : State) (contact : Nat) : State :=
  match s.record? contact with
  | none => s
  | some r =>
    let l := s.lookupRecord r
    let s1 := (s.mapRecord contact fun r => { r with state := .placed, direction := s.grf.direction }).countMisses
      l.misses
    match State.sendRequests contact (l.requests .placement) s1 with
    | (s2, none) => s2
    | (s2, some rest) => s2.setPlu { s2.plu with suspended := some ⟨contact, rest, [], none⟩ }

/-- Placements made one record after another; where one is suspended the records after it stay owed (R58, R65). -/
def State.placeAll : List Nat → State → State
  | [], s => s.setPlu { s.plu with owed := [] }
  | c :: cs, s =>
    let s1 := (s.setPlu { s.plu with owed := cs }).placeRecord c
    if s1.isSuspended then s1 else State.placeAll cs s1

/-! ## Breath hold and fade (section 7.6) -/

/-- The fade of one record: every occurrence of its tag list is released with FADE, and it becomes ARMED (R118). -/
def State.fadeRecord (s : State) (r : HeldRecord) : State :=
  if r.state = .placed then
    (r.tags.foldl (State.releaseHolder · .fade) s).mapRecord r.contact fun r => { r with state := .armed, tags := [] }
  else s

/-- A fade (R118); the breath timer is idle after it. -/
def State.fade (s : State) : State :=
  let s1 := s.plu.held.foldl State.fadeRecord s
  s1.setPlu { s1.plu with breathTimer := none }

/-- A fall of L to 0 taken (R117): in RUN, with a PLACED record, the breath timer starts with the hold time, or the fade
is taken at once under a hold time of 0. A held fall is dropped if L is above 0 when it is taken (R58). -/
def State.takeFall (s : State) : State :=
  if s.grf.level = 0 ∧ s.stc.station = .run ∧ s.plu.held.any (·.state == .placed) = true then
    if s.plu.holdTime = 0 then s.fade
    else s.setPlu { s.plu with breathTimer := some (ms s.plu.holdTime) }
  else s

/-! ## Reversal (section 7.5) -/

/-- A reversed record with what its first stage found: its requests, each with its resolution (R112). -/
structure Reversed where
  contact : Nat
  tags : List Nat
  items : List (NoteRequest × Option (Slot × Nat))
  misses : Nat
deriving DecidableEq, Repr

/-- The outcome of the second stage for one record (R113). -/
structure Matched where
  contact : Nat
  unmatched : List NoteRequest
  kept : List Nat
  released : List Nat
deriving DecidableEq, Repr

/-- The first stage for one record (R112): its lookup and the resolution of each item. -/
def State.reversalLookup (s : State) (r : HeldRecord) : Reversed :=
  let l := s.lookupRecord r
  { contact := r.contact
    tags := r.tags
    items := (l.requests .reversal).map fun q => (q, s.ofu.resolve q)
    misses := l.misses }

/-- The records a reversal acts on: the PLACED records whose direction differs from the group direction (R112). -/
def State.reversedRecords (s : State) : List HeldRecord :=
  s.plu.held.filter fun r => r.state == .placed && r.direction != s.grf.direction

/-- The tag's roster entry has this slot and folded pitch. -/
def NoteRoster.holdsNote (n : NoteRoster) (tag : Nat) (k : Slot) (pitch : Nat) : Bool :=
  match n.roster.find? (·.tag == tag) with
  | some e => e.slot == k && e.pitch == pitch
  | none => false

/-- The first occurrence not yet taken of a tag whose entry has this slot and pitch is taken (R113); `none` where there
is none. An occurrence is paired with whether it is taken. -/
def takeOccurrence (n : NoteRoster) (k : Slot) (pitch : Nat) : List (Nat × Bool) → Option (List (Nat × Bool))
  | [] => none
  | (t, taken) :: rest =>
    if !taken && n.holdsNote t k pitch then some ((t, true) :: rest)
    else (takeOccurrence n k pitch rest).map ((t, taken) :: ·)

/-- The items of a lookup matched in order against the occurrences of a tag list: the requests of the items that stay
unmatched, and the occurrences with whether an item took them (R113). -/
def matchItems (n : NoteRoster) :
    List (NoteRequest × Option (Slot × Nat)) → List (Nat × Bool) → List NoteRequest × List (Nat × Bool)
  | [], occ => ([], occ)
  | (q, none) :: items, occ =>
    let (un, occ') := matchItems n items occ
    (q :: un, occ')
  | (q, some (k, pitch)) :: items, occ =>
    match takeOccurrence n k pitch occ with
    | some occ1 => matchItems n items occ1
    | none =>
      let (un, occ') := matchItems n items occ
      (q :: un, occ')

/-- The second stage's matching for one record (R113). -/
def Reversed.matched (n : NoteRoster) (r : Reversed) : Matched :=
  let (un, occ) := matchItems n r.items (r.tags.map fun t => (t, false))
  { contact := r.contact
    unmatched := un
    kept := (occ.filter (·.2)).map (·.1)
    released := (occ.filter (!·.2)).map (·.1) }

/-- The second stage's releases for one record: the untaken occurrences leave the tag list and each releases one holder
with REVERSAL, in tag-list order (R113). -/
def State.releaseUnmatched (s : State) (m : Matched) : State :=
  m.released.foldl (State.releaseHolder · .reversal) (s.mapRecord m.contact fun r => { r with tags := m.kept })

/-- A BOW is queued at the end of the note queue, or kept as the owed BOW while one is in flight (R115). -/
def State.sendBow (s : State) (d : Direction) (mask : SlotMask) : State :=
  if s.bowInFlight then s.setPlu { s.plu with owedBow := some (d, mask) } else s.enqueue (.bow d mask)

/-- The mask of a reversal: each slot that holds an entry which was SOUNDING when the reversal was taken, is SOUNDING
now, and is held now by a reversed record (R115). -/
def State.bowMask (s : State) (contacts : List Nat) : SlotMask :=
  maskOf fun k => s.nrs.roster.any fun e =>
    e.slot == k && e.soundingAtTurn && e.state == .sounding &&
      s.plu.held.any fun r => contacts.contains r.contact && r.tags.contains e.tag

/-- The fourth stage (R115). -/
def State.reversalFourth (s : State) (contacts : List Nat) : State :=
  let s1 := if s.bowInFlight then s else s.withdrawBow
  let s2 := s1.setPlu { s1.plu with owedBow := none }
  let mask := s2.bowMask contacts
  if mask = 0#8 then s2 else s2.sendBow s2.grf.direction mask

/-- The third stage (R114), record by record, and then the fourth. -/
def State.reversalThird (contacts : List Nat) : List (Nat × List NoteRequest) → State → State
  | [], s => s.reversalFourth contacts
  | (c, rs) :: later, s =>
    match State.sendRequests c rs s with
    | (s1, none) => State.reversalThird contacts later s1
    | (s1, some rest) => s1.setPlu { s1.plu with suspended := some ⟨c, rest, later, some contacts⟩ }

/-- The first stage's marks (R112, R115): which entries are SOUNDING now, the reversed records' directions, and the map
misses. -/
def State.reversalFirst (s : State) (found : List Reversed) : State :=
  let s1 := s.setNrs { s.nrs with
    roster := s.nrs.roster.map fun e => { e with soundingAtTurn := e.state == .sounding } }
  let s2 := s1.setPlu { s1.plu with
    held := s1.plu.held.map fun r =>
      if (found.map (·.contact)).contains r.contact then { r with direction := s.grf.direction } else r }
  s2.countMisses ((found.map (·.misses)).sum)

/-- A reversal (R112 to R115). -/
def State.reversal (s : State) : State :=
  let found := s.reversedRecords.map s.reversalLookup
  let s1 := s.reversalFirst found
  let matches' := found.map (Reversed.matched s1.nrs)
  let s2 := matches'.foldl State.releaseUnmatched s1
  State.reversalThird (found.map (·.contact)) (matches'.map fun m => (m.contact, m.unmatched)) s2

/-! ## Presses and releases -/

/-- The bank pair of a press (R12). -/
def pairOf (kind : ButtonKind) (shiftHeld : Bool) : PairName :=
  if shiftHeld then .alt else if kind = .bass then .bass else .treble

/-- A record is appended at the end of the list with an empty tag list (R51). -/
def State.appendRecord (s : State) (contact ordinal : Nat) (pair : PairName) (state : RecordState) : State :=
  s.setPlu { s.plu with held := s.plu.held ++ [⟨contact, ordinal, pair, s.grf.direction, state, []⟩] }

/-- A press taken (R51 in RUN, R52 in RELOADING). -/
def State.takePress (s : State) (contact ordinal : Nat) (kind : ButtonKind) (shiftHeld : Bool) : State :=
  if s.plu.held.any (·.contact == contact) then s
  else if 24 ≤ s.plu.held.length then s.countHeldOverflow
  else
    let pair := pairOf kind shiftHeld
    if s.stc.station = .run then
      if s.grf.level = 0 then s.appendRecord contact ordinal pair .armed
      else (s.appendRecord contact ordinal pair .placed).placeRecord contact
    else s.appendRecord contact ordinal pair .spent

/-- A release taken (R67): one holder reference is released for each tag, in list order, and the record is removed. -/
def State.takeRelease (s : State) (contact : Nat) : State :=
  match s.record? contact with
  | none => s
  | some r =>
    let s1 := r.tags.foldl (State.releaseHolder · .normal) s
    s1.setPlu { s1.plu with held := s1.plu.held.filter (·.contact != contact) }

/-! ## Events and suspension (R57, R58) -/

/-- An event taken as if it had just arrived (R58). -/
def State.takeEvent (s : State) : PlacementEvent → State
  | .press contact ordinal kind shiftHeld => s.takePress contact ordinal kind shiftHeld
  | .release contact => s.takeRelease contact
  | .turn => s.reversal
  | .fall => s.takeFall
  | .breathExpiry => s.fade

/-- An event that reaches the Placement Unit: held while a request is outstanding, taken at once otherwise. The unit
takes events in RUN and RELOADING (R49). -/
def State.placementEvent (s : State) (e : PlacementEvent) : State :=
  if s.playing then
    if s.isSuspended then s.setPlu { s.plu with heldEvents := s.plu.heldEvents ++ [e] } else s.takeEvent e
  else s

/-- Held events taken in arrival order; where one suspends the unit again, those after it stay held (R58). -/
def State.takeHeld : List PlacementEvent → State → State
  | [], s => s.setPlu { s.plu with heldEvents := [] }
  | e :: es, s =>
    let s1 := (s.setPlu { s.plu with heldEvents := es }).takeEvent e
    if s1.isSuspended then s1 else State.takeHeld es s1

/-- After a suspended operation ends, the placements owed are made and then the held events are taken (R58). -/
def State.afterOperation (s : State) : State :=
  if s.isSuspended then s
  else
    let s1 := State.placeAll s.plu.owed s
    if s1.isSuspended then s1 else State.takeHeld s1.plu.heldEvents s1

/-- The suspended operation goes on with its next request (R57). -/
def State.continueOperation (s : State) (op : Operation) : State :=
  match State.sendRequests op.record op.requests s with
  | (s1, some rest) => s1.setPlu { s1.plu with suspended := some { op with requests := rest } }
  | (s1, none) =>
    match op.reversal with
    | none => s1
    | some contacts => State.reversalThird contacts op.later s1

/-- The waiting request is answered: the suspended operation goes on, and what waited behind it follows. -/
def State.answered (s : State) (op : Operation) (tag : Option Nat) : State :=
  let s1 := s.setPlu { s.plu with suspended := none }
  let s2 := match tag with
    | some t => s1.appendTag op.record t
    | none => s1
  (s2.continueOperation op).afterOperation

/-- The waiting request is answered UNPLACED as a panic owed it: the suspended operation ends without its further
requests (R58, R92). -/
def State.answeredByPanic (s : State) : State :=
  (s.setPlu { s.plu with suspended := none }).afterOperation

/-- The attempt of the NOTE END that a request waited for has ended: the request is handled again from the start, or is
answered UNPLACED if a panic owed it that (R77, R92). -/
def State.retryWaiting (s : State) : State :=
  match s.nrs.waiting with
  | none => s
  | some r =>
    let s1 := s.setNrs { s.nrs with waiting := none, answerOwed := false }
    if s.nrs.answerOwed then s1.countUnplaced.answeredByPanic
    else
      match s1.plu.suspended, s1.answerRequest r with
      | some op, (.tag t, s2) => s2.answered op (some t)
      | some op, (.unplaced, s2) => s2.answered op none
      | _, (_, s2) => s2

/-! ## Group changes (R111) and panics (R172) -/

/-- L has risen from 0 (R65, R111): every ARMED record becomes PLACED at once, the breath timer and a held breath-timer
expiry are cancelled, and the placements follow in list order, or are owed while a request is outstanding (R58). -/
def State.levelRise (s : State) : State :=
  let s1 := s.setPlu { s.plu with
    breathTimer := none
    heldEvents := s.plu.heldEvents.filter (· != .breathExpiry) }
  if s.stc.station = .run then
    let armed := (s.plu.held.filter (·.state == .armed)).map (·.contact)
    let owed := s.plu.owed ++ armed
    let s2 := s1.setPlu { s1.plu with
      held := s1.plu.held.map fun r => if r.state = .armed then { r with state := .placed } else r
      owed := owed }
    if s2.isSuspended then s2 else State.placeAll owed s2
  else s1

/-- A group change handed to the Placement Unit, taken in the order of R111. -/
def State.groupChange (s : State) (turned rose fell : Bool) : State :=
  if s.playing then
    let s1 := if rose then s.levelRise else s
    let s2 := if turned then s1.placementEvent .turn else s1
    if fell then s2.placementEvent .fall else s2
  else s

/-- A record silenced by a panic (R53, R172). -/
def HeldRecord.silenced (r : HeldRecord) : HeldRecord :=
  { r with state := .spent, tags := [] }

/-- A panic event taken by the Placement Unit in RUN or RELOADING, at once even while a request is outstanding (R58,
R172): every record is SPENT, the breath timer and a held breath-timer expiry are cancelled, the placements owed are
not made, and roster panic follows. -/
def State.panic (s : State) : State :=
  if s.playing then
    (s.setPlu { s.plu with
      held := s.plu.held.map HeldRecord.silenced
      breathTimer := none
      owed := []
      heldEvents := s.plu.heldEvents.filter (· != .breathExpiry) }).rosterPanic
  else s

end Sys2Proof.Machine
end

