-- ==== Sys2Proof/Machine/Follower.lean ====
section
/-! DEFINITION. The Group Follower (chapter 7): direction and level, the followed source and its freshness, and the
current registration. -/

namespace Sys2Proof.Machine

/-- The Group Follower's new direction and level (R111): the Level Unit hears of a change of L first, and the Placement
Unit then takes one group change. -/
def State.setGroup (s : State) (d : Direction) (level : Nat) : State :=
  let turned := s.grf.direction != d
  let old := s.grf.level
  let s1 := s.setGrf { s.grf with direction := d, level := level }
  if turned || old != level then
    let s2 := if old != level then s1.recomputeLevels else s1
    s2.groupChange turned (old == 0 && level != 0) (old != 0 && level == 0)
  else s1

/-- The Bellows Unit hands its direction and level to the Group Follower of a LOCAL station (R45, R106). -/
def State.handBellows (s : State) : State :=
  match s.grf.sourceMode with
  | .localUnit => s.setGroup s.blw.direction s.blw.level
  | .follow => s

/-- The record of a peer's link address 1..12. -/
def PeerTable.peer (p : PeerTable) (address : Nat) : PeerRecord :=
  if address = 0 then .absent else p.peers.getD (address - 1) .absent

/-- A candidate (R107): a live peer whose known fields declare the own group and the bellows role. -/
def State.isCandidate (s : State) (address : Nat) : Bool :=
  let p := s.ptb.peer address
  p.live &&
    match p.declared with
    | some d => d.group == s.grf.ownGroup && d.role
    | none => false

/-- The link addresses of stations, in ascending order. -/
def addresses : List Nat :=
  (List.range 12).map (· + 1)

/-- The lowest-address candidate. -/
def State.lowestCandidate (s : State) : Option Nat :=
  addresses.find? s.isCandidate

/-- The freshness becomes LOST: both timers stop, BELLOWS LOST enters the trouble set and L becomes 0, the direction
being held (R109, R110). -/
def State.sourceLost (s : State) : State :=
  let s1 := s.setGrf { s.grf with freshness := .lost, staleTimer := none, lostTimer := none }
  (s1.setBellowsLost true).setGroup s1.grf.direction 0

/-- A report of the Peer Table taken by the Group Follower (R107, R144): a FOLLOW station finds the lowest-address
candidate afresh. -/
def State.followReport (s : State) : State :=
  match s.grf.sourceMode with
  | .localUnit => s
  | .follow =>
    match s.lowestCandidate with
    | some a => s.setGrf { s.grf with source := some a }
    | none =>
      let s1 := s.setGrf { s.grf with source := none }
      if s.grf.freshness = .lost then s1 else s1.sourceLost

/-- A BELLOWS frame accepted from the followed source (R108). -/
def State.acceptBellows (s : State) (d : Direction) (level : Nat) (lost : Bool) : State :=
  if lost then s.sourceLost
  else
    let s1 := s.setGrf { s.grf with
      freshness := .fresh
      staleTimer := some (ms 60)
      lostTimer := some (ms 500) }
    (s1.setBellowsLost false).setGroup d level

/-- A BELLOWS frame handed to the Group Follower (R106, R108, R177). -/
def State.takeBellows (s : State) (f : RxFrame) : State :=
  if s.grf.sourceMode = .follow ∧ s.grf.source = some f.sender ∧ (f.byte 0).toNat = s.grf.ownGroup then
    s.acceptBellows (directionOf ((f.byte 1).getLsbD 0)) (lowBits 7 (f.byte 2)) ((f.byte 1).getLsbD 1)
  else s

/-- A number becomes the current registration and the section levels are recomputed (R96, R119, R120). -/
def State.adoptRegistration (s : State) (number : Nat) : State :=
  (s.setGrf { s.grf with registration := number }).recomputeLevels

/-- A register selection of the Matrix Scanner, taken in JOINING, RUN and RELOADING (R105, R119): in mode SHARED and in
RUN the REGISTRATION entry is written. -/
def State.selectRegistration (s : State) (number : Nat) : State :=
  if s.working then
    let s1 := s.adoptRegistration number
    if s1.grf.registrationMode = .shared ∧ s1.stc.station = .run then
      s1.writeEntry .registration (.registration s1.grf.ownGroup number)
    else s1
  else s

/-- A REGISTRATION frame handed to the Group Follower (R120, R177). -/
def State.takeRegistration (s : State) (f : RxFrame) : State :=
  if s.grf.registrationMode = .shared ∧ (f.byte 0).toNat = s.grf.ownGroup then
    s.adoptRegistration (lowBits 4 (f.byte 1))
  else s

end Sys2Proof.Machine
end

