-- ==== Sys2Proof/Machine/Bellows.lean ====
section
/-! DEFINITION. The Bellows Unit (chapter 3): samples, zero capture, the measuring chain and the BELLOWS entry. -/

namespace Sys2Proof.Machine

/-! ## The measuring chain (section 3.5) -/

/-- Emax = 2047 − D (section 3.2). -/
def BellowsSettings.magnitudeMax (c : BellowsSettings) : Nat :=
  2047 - c.deadBand

/-- The pressure of a sample: floor((c − z) / 2^s), clamped to −2047..+2047 (R42). -/
def pressureOf (shift : Nat) (zero count : Int) : Int :=
  clampInt (-2047) 2047 ((count - zero) / 2 ^ shift)

/-- The direction decided from the pressure with hysteresis around the dead band (R43). -/
def directionAfter (c : BellowsSettings) (d : Direction) (p : Int) : Direction :=
  let margin : Int := c.deadBand + c.hysteresis
  match d with
  | .push => if p < -margin then .pull else .push
  | .pull => if p > margin then .push else .pull

/-- The magnitude |p| − D where |p| is above D, and 0 otherwise (R44). -/
def magnitudeOf (c : BellowsSettings) (p : Int) : Int :=
  if p.natAbs > c.deadBand then p.natAbs - c.deadBand else 0

/-- The step by which the smoothed magnitude moves: d / 2^k rounded with halves away from zero, and at least one toward
d where d is not 0 (R44). -/
def smoothingStep (k : Nat) (d : Int) : Int :=
  let q := roundAway d (2 ^ k)
  if q = 0 ∧ d ≠ 0 then (if 0 < d then 1 else -1) else q

/-- The smoothed magnitude after a sample of magnitude m (R44). -/
def magnitudeAfter (c : BellowsSettings) (e m : Int) : Int :=
  e + smoothingStep c.smoothing (m - e)

/-- The level read from the curve at e (R45). -/
def levelOf (c : BellowsSettings) (e : Int) : Nat :=
  let u := 16 * e.toNat
  let i := u / c.magnitudeMax
  if 16 ≤ i then c.curve.getD 16 0
  else
    let f := u - i * c.magnitudeMax
    let low : Int := c.curve.getD i 0
    let high : Int := c.curve.getD (i + 1) 0
    (low + roundUp ((high - low) * f) c.magnitudeMax).toNat

/-- A sample taken through the chain (R42 to R45). -/
def BellowsUnit.chain (b : BellowsUnit) (count : Int) : BellowsUnit :=
  let p := pressureOf b.settings.shift b.zero count
  let e := magnitudeAfter b.settings b.magnitude (magnitudeOf b.settings p)
  { b with
    direction := directionAfter b.settings b.direction p
    magnitude := e
    level := levelOf b.settings e }

/-! ## Zero capture (section 3.4) -/

/-- The greatest of the counts; 0 for none. -/
def greatest : List Int → Int
  | [] => 0
  | c :: cs => cs.foldl max c

/-- The least of the counts; 0 for none. -/
def least : List Int → Int
  | [] => 0
  | c :: cs => cs.foldl min c

/-- The tolerance of an attempt: the greater of 2D and 8 (R39). -/
def BellowsSettings.tolerance (c : BellowsSettings) : Int :=
  max (2 * c.deadBand) 8

/-- Zeroing ends with the zero `z` (R40). -/
def BellowsUnit.zeroed (b : BellowsUnit) (z : Int) : BellowsUnit :=
  { b with
    phase := .measuring
    zero := z
    direction := .push
    magnitude := 0
    level := 0
    attempt := 0
    samples := [] }

/-- A count joins the attempt in progress, which is judged at its sixteenth (R39). -/
def BellowsUnit.capture (b : BellowsUnit) (count : Int) : BellowsUnit :=
  let samples := b.samples ++ [count]
  if samples.length < 16 then { b with samples := samples }
  else if greatest samples - least samples ≤ b.settings.tolerance then b.zeroed (roundAway samples.sum 16)
  else if b.attempt < 8 then { b with samples := [], attempt := b.attempt + 1 }
  else b.zeroed b.settings.storedZero

/-! ## Phases, samples and the sensor state -/

/-- A conversion is started and the sample timer is loaded with one full period (R35). -/
def BellowsUnit.convert (b : BellowsUnit) : BellowsUnit :=
  { b with outstanding := true, sampleTimer := some (ms b.settings.samplePeriod) }

/-- Entry to ZEROING: attempt 1 begins with no samples and a conversion is started at once (R34, R35). -/
def BellowsUnit.startZeroing (b : BellowsUnit) : BellowsUnit :=
  { b.convert with phase := .zeroing, attempt := 1, samples := [] }

/-- The unit goes to OFF as the station leaves for RELOADING or FAULT: both timers stop and an outstanding conversion is
abandoned, and z, direction, e, L and the sensor state are kept (R34). DESIGN CHOICE (log entry 17): so are the
missed-sample count, the attempt and its capture samples, of which R34 says nothing here. -/
def BellowsUnit.stop (b : BellowsUnit) : BellowsUnit :=
  { b with phase := .off, outstanding := false, sampleTimer := none, heartbeat := none }

/-- The BELLOWS entry is written with the unit's values of the moment (R46, R47), restarting the heartbeat timer with
20 ms. -/
def State.writeBellows (s : State) : State :=
  let s1 := s.writeEntry .bellows (.bellows s.grf.ownGroup s.blw.direction s.blw.level s.blw.sensorLost)
  s1.setBlw { s1.blw with heartbeat := some (ms 20) }

/-- The two conditions of R46 hold: the station is in RUN and the phase is MEASURING. -/
def State.bellowsWrites (s : State) : Bool :=
  s.stc.station == .run && s.blw.phase == .measuring

/-- A sample or a missed sample that changed L, the direction or the sensor state, or that ended zeroing, writes the
BELLOWS entry while the two conditions hold (R46). `b` is the unit before it. -/
def State.writeBellowsAfter (s : State) (b : BellowsUnit) : State :=
  if s.bellowsWrites && (b.phase != .measuring || b.level != s.blw.level || b.direction != s.blw.direction ||
      b.sensorLost != s.blw.sensorLost) then s.writeBellows
  else s

/-- The eighth missed sample in a row loses the sensor: e and L become 0, the direction is held, and the samples of the
attempt in progress are discarded (R38). -/
def BellowsUnit.lose (b : BellowsUnit) : BellowsUnit :=
  { b with sensorLost := true, magnitude := 0, level := 0, samples := [] }

/-- A missed sample (R37): the count rises to at most 8, and the eighth in a row loses an ACTIVE sensor (R38). -/
def State.missSample (s : State) : State :=
  let missed := min (s.blw.missed + 1) 8
  let s1 := s.setBlw { s.blw with missed := missed, outstanding := false }
  if missed = 8 ∧ s.blw.sensorLost = false then
    (((s1.setBlw s1.blw.lose).setSensorLost true).handBellows).writeBellowsAfter s.blw
  else s1

/-- An answer to the outstanding conversion (R36, R38). -/
def State.takeSample (s : State) (count : Int) : State :=
  let s1 := s.setBlw { s.blw with outstanding := false, missed := 0, sensorLost := false }
  let s2 := if s.blw.sensorLost then s1.setSensorLost false else s1
  match s.blw.phase with
  | .off => s
  | .zeroing =>
    let s3 := s2.setBlw (s2.blw.capture count)
    if s3.blw.phase = .measuring then (s3.handBellows).writeBellowsAfter s.blw else s3
  | .measuring => ((s2.setBlw (s2.blw.chain count)).handBellows).writeBellowsAfter s.blw

end Sys2Proof.Machine
end

