-- ==== Sys2Proof/Machine/Offers.lean ====
section
/-! DEFINITION. The Offer Unit (chapter 8): offer sets, slots, shares, caps and limits, engine liveness and alerts. -/

namespace Sys2Proof.Machine

/-! ## From offers to slots (section 8.4) -/

/-- The slot an offer is classified into (R126); `none` where it is discarded. -/
def Offer.slot? (o : Offer) : Option Slot :=
  if o.low > o.high then none
  else
    match o.family with
    | 0 => some (if o.low ≤ 43 then 0 else 1)
    | 1 => some (if o.low ≤ 45 then 2 else 3)
    | 2 => some (if o.low ≤ 50 then 4 else 5)
    | 3 => some 6
    | 4 => some 7
    | _ => none

/-- The quantised values, greatest first (R127). -/
def quantisedValues : List Nat :=
  [64, 48, 32, 24, 16, 12, 8, 6, 4, 3, 2, 1, 0]

/-- The advertised polyphony rounded down to the nearest quantised value (R127). -/
def quantise (p : Nat) : Nat :=
  (quantisedValues.find? (· ≤ p)).getD 0

/-- What an offer gives the slot that keeps it. -/
def Offer.detected (o : Offer) : Detected :=
  ⟨o.low, o.high, quantise o.polyphony⟩

/-- The offer kept for a slot: the greatest Q, and of equals the earliest (R128). -/
def keptOffer (k : Slot) (offers : List Offer) : Option Detected :=
  ((offers.filter fun o => o.slot? == some k).map Offer.detected).foldl
    (fun kept d =>
      match kept with
      | none => some d
      | some b => if d.polyphony > b.polyphony then some d else some b) none

/-- The slot table that a list of offers gives: a slot is detected when the offer it keeps has Q of 1 or more (R127 to
R130). -/
def tableOf (offers : List Offer) : PerSlot (Option Detected) :=
  .ofFn fun k =>
    match keptOffer k offers with
    | some d => if 1 ≤ d.polyphony then some d else none
    | none => none

/-! ## Shares and limits (section 8.7) -/

/-- n_s: this station and the live peers whose known fields declare the slot (R131). -/
def PeerTable.declaring (p : PeerTable) (k : Slot) : Nat :=
  1 + (p.peers.filter fun r =>
    r.live &&
      match r.declared with
      | some d => SlotMask.has d.mask k
      | none => false).length

/-- The share of a slot (R131). -/
def shareOf (d : Option Detected) (n : Nat) : Nat :=
  match d with
  | none => 0
  | some d => if d.polyphony = 0 then 0 else max 1 (d.polyphony / n)

/-- The limit of a slot: the smaller of its share and its cap (R133). -/
def limitOf (share : Nat) (cap : Option Nat) : Nat :=
  match cap with
  | none => share
  | some c => min share c

/-- The shares and limits of all eight slots recomputed (R133). -/
def State.recomputeLimits (s : State) : State :=
  let share := PerSlot.ofFn fun k => shareOf (s.ofu.table.get k) (s.ptb.declaring k)
  s.setOfu { s.ofu with
    share := share
    limit := .ofFn fun k => limitOf (share.get k) (s.ofu.cap.get k) }

/-- A recomputation followed by the trim of every slot whose limit fell below its count (R133, R89, R90). -/
def State.recomputeAndTrim (s : State) : State :=
  s.recomputeLimits.trimAll

/-! ## Offer sets (sections 8.3 and 8.5) -/

/-- The adoption of a list of offers (R129): the whole slot table is replaced, every cap lifted, the shares and limits
recomputed and the slots trimmed. -/
def State.adoptOffers (s : State) (offers : List Offer) : State :=
  (s.setOfu { s.ofu with table := tableOf offers, cap := .all none, assembly := none }).recomputeAndTrim

/-- A part stored in the assembly buffer (R124), or the buffer as it stands where the part is discarded. -/
def Assembly.store (a : Option Assembly) (setNumber i n : Nat) (offers : List Offer) : Option Assembly :=
  if 1 ≤ n ∧ n ≤ 4 ∧ 1 ≤ i ∧ i ≤ n then
    let parts :=
      match a with
      | some b => if b.setNumber = setNumber ∧ b.parts.length = n then b.parts else List.replicate n none
      | none => List.replicate n none
    some ⟨setNumber, parts.set (i - 1) (some offers)⟩
  else a

/-- Every part of the set is present. -/
def Assembly.complete (a : Assembly) : Bool :=
  a.parts.all Option.isSome

/-- The offers of a complete set, in order of part number and within a part in their order of arrival (R125). -/
def Assembly.offers (a : Assembly) : List Offer :=
  a.parts.flatMap fun p => p.getD []

/-- An ENGINE OFFER part taken from the engine (R123, R124, R125). -/
def State.takeOffer (s : State) (f : RxFrame) : State :=
  if f.sender = 15 then
    let i := (f.byte 1).toNat / 16
    let n := (f.byte 1).toNat % 16
    let s1 := s.setOfu { s.ofu with
      assembly := Assembly.store s.ofu.assembly (f.byte 0).toNat i n (offersOf (f.payload.drop 2)) }
    match s1.ofu.assembly with
    | some a => if a.complete then s1.adoptOffers a.offers else s1
    | none => s1
  else s

/-! ## Engine liveness and alerts (sections 8.8 and 8.9) -/

/-- A valid frame from address 15 is evidence of the engine (R134). -/
def State.engineEvidence (s : State) : State :=
  (s.setOfu { s.ofu with engine := .live, livenessTimer := some (ms 2000) }).setEngineAbsent false

/-- The EXHAUSTED flag: each slot of the mask is capped at its count of the moment, ENGINE EXHAUSTIONS rises, and the
limits are recomputed (R132, R133). -/
def State.takeExhausted (s : State) (mask : SlotMask) : State :=
  ((s.setOfu { s.ofu with
    cap := .ofFn fun k => if SlotMask.has mask k then some (s.nrs.count k) else s.ofu.cap.get k }).countExhaustion).recomputeAndTrim

/-- The RESTARTED flag: the restart report to the Note Roster and to the Level Unit (R135, R91, R102). -/
def State.takeRestarted (s : State) : State :=
  s.refresh.restartLevels

/-- Bit `i` of the flags of an ENGINE ALERT: 0 EXHAUSTED, 1 RESTARTED, 2 PANIC (section 12.3). -/
def RxFrame.alertFlag (f : RxFrame) (i : Nat) : Bool :=
  (f.byte 0).getLsbD i

/-- An ENGINE ALERT taken from the engine: its flags are acted on in the order EXHAUSTED, RESTARTED, PANIC, each fully
before the next (R123, R135). -/
def State.takeAlert (s : State) (f : RxFrame) : State :=
  if f.sender = 15 then
    let s1 := if f.alertFlag 0 then s.takeExhausted (f.byte 1) else s
    let s2 := if f.alertFlag 1 then s1.takeRestarted else s1
    if f.alertFlag 2 then s2.panic else s2
  else s

end Sys2Proof.Machine
end

