-- ==== Sys2Proof/Machine/Peers.lean ====
section
/-! DEFINITION. The Peer Table (chapter 9): the station's own PRESENCE, the evidence of its peers and their expiry. -/

namespace Sys2Proof.Machine

/-- The PRESENCE entry is written with the values of the moment, and the presence timer loaded with 100 ms (R138,
R139). -/
def State.writePresence (s : State) : State :=
  let s1 := s.writeEntry .presence (.presence s.grf.ownGroup s.blw.settings.role s.grf.registrationMode s.stl.slotUse
    s.grf.registration s.stc.station s.stc.trouble)
  s1.setPtb { s1.ptb with presenceTimer := some (ms 100) }

/-- The state with the record of a peer's link address replaced. -/
def State.setPeer (s : State) (address : Nat) (p : PeerRecord) : State :=
  s.setPtb { s.ptb with peers := s.ptb.peers.set (address - 1) p }

/-- A report of the Peer Table, handed to the Group Follower and to the Offer Unit (R107, R133, R144). DESIGN CHOICE
(log entry 18): the Group Follower takes it first. R144 leaves the order free, and it shows where one report both takes
the last candidate away under a hold time of 0, whose fade ends notes with FADE, and lowers a limit, whose trim ends
notes with STOLEN. -/
def State.peerReport (s : State) : State :=
  s.followReport.recomputeAndTrim

/-- A link address that the Peer Table keeps a record for: 1..12, other than the own address (R141). -/
def State.isPeerAddress (s : State) (address : Nat) : Bool :=
  1 ≤ address && address ≤ 12 && address != s.stl.ownAddress

/-- What a PRESENCE frame declares; `none` for a frame of another kind and for a group outside 1..4 (R177). -/
def RxFrame.declaration (f : RxFrame) : Option Declaration :=
  let group := (f.byte 0).toNat
  if f.kind = kindPresence ∧ 1 ≤ group ∧ group ≤ 4 then
    some ⟨group, (f.byte 1).getLsbD 0, f.byte 2⟩
  else none

/-- A frame's evidence taken by the record of its sender, with the report it causes (R141, R142). -/
def State.peerEvidence (s : State) (f : RxFrame) : State :=
  if s.isPeerAddress f.sender then
    let old := s.ptb.peer f.sender
    let known := if old.live then old.declared else none
    let declared := match f.declaration with
      | some d => some d
      | none => known
    let s1 := s.setPeer f.sender ⟨true, some (ms 350), declared⟩
    if old.live && known == declared then s1 else s1.peerReport
  else s

/-- The expiry timer of a LIVE record runs out: it becomes ABSENT and the expiry is reported (R143). -/
def State.expirePeer (s : State) (address : Nat) : State :=
  (s.setPeer address .absent).peerReport

end Sys2Proof.Machine
end

