-- ==== Sys2Proof/Machine/Scanner.lean ====
section
/-! DEFINITION. The Matrix Scanner (chapter 2): debouncing, the button plan, and the delivery of a scan's events. -/

namespace Sys2Proof.Machine

/-- A scanned contact: its drive line and its sense line are both configured (R20). -/
def MatrixScanner.scanned (m : MatrixScanner) (index : Nat) : Bool :=
  index / 12 < m.driveCount && index % 12 < m.senseCount

/-- One raw reading compared with the debounced state (R23): the contact after it, and whether a transition is
accepted. -/
def Contact.debounce (c : Contact) (n : Nat) (closed : Bool) : Contact × Bool :=
  if closed == c.pressed then ({ c with counter := 0 }, false)
  else if c.counter + 1 = n then (⟨!c.pressed, 0⟩, true)
  else ({ c with counter := c.counter + 1 }, false)

/-- The readings of one scan applied to the contacts from index `i` on: the contacts after it, and the indices whose
transition is accepted, ascending (R22, R23). -/
def MatrixScanner.debounceFrom (m : MatrixScanner) (closed : List Nat) : Nat → List Contact → List Contact × List Nat
  | _, [] => ([], [])
  | i, c :: cs =>
    let (rest, accepted) := m.debounceFrom closed (i + 1) cs
    if m.scanned i then
      let (c', now) := c.debounce m.debounceCount (closed.contains i)
      (c' :: rest, if now then i :: accepted else accepted)
    else (c :: rest, accepted)

/-- The range covers the contact index (R25, R26). -/
def PlanRange.covers (r : PlanRange) (index : Nat) : Bool :=
  r.first ≤ index && index < r.first + r.count && index < 192 && r.ordinalBase + (index - r.first) ≤ 4095

/-- A contact's kind and ordinal, from the first range that covers it; NONE where no range does (R25, R26). -/
def MatrixScanner.button (m : MatrixScanner) (index : Nat) : ButtonKind × Nat :=
  match m.plan.find? (·.covers index) with
  | some r => (r.kind, r.ordinalBase + (index - r.first))
  | none => (.noKind, 0)

/-- The state with the shift count changed. -/
def State.mapShift (s : State) (f : Nat → Nat) : State :=
  s.setMsc { s.msc with shiftCount := f s.msc.shiftCount }

/-- An accepted release delivered (R27 to R30). -/
def State.deliverRelease (s : State) (index : Nat) : State :=
  match (s.msc.button index).1 with
  | .treble | .bass => s.placementEvent (.release index)
  | .shift => s.mapShift (· - 1)
  | .register | .noKind => s

/-- An accepted press delivered (R27 to R30). -/
def State.deliverPress (s : State) (index : Nat) : State :=
  let (kind, ordinal) := s.msc.button index
  match kind with
  | .treble | .bass => s.placementEvent (.press index ordinal kind (0 < s.msc.shiftCount))
  | .register => if ordinal ≤ 15 then s.selectRegistration ordinal else s
  | .shift => s.mapShift (· + 1)
  | .noKind => s

/-- The full scan period (R21): the scan period code in steps of 0.5 ms. -/
def MatrixScanner.period (m : MatrixScanner) : Timer :=
  some m.scanCode

/-- A scan is started, and the timer loaded with the next full period (R21). -/
def MatrixScanner.startScan (m : MatrixScanner) : MatrixScanner :=
  { m with scanTimer := m.period, scanning := true }

/-- The scan under way is completed (R22 to R24): every scanned contact is debounced against its reading, and the accepted
transitions are delivered, the releases first and then the presses, each in ascending order of index. -/
def State.finishScan (s : State) (closed : List Nat) : State :=
  let (contacts, accepted) := s.msc.debounceFrom closed 0 s.msc.contacts
  let s1 := s.setMsc { s.msc with contacts := contacts, scanning := false }
  let isPress := fun i => (contacts.getD i .reset).pressed
  let s2 := (accepted.filter fun i => !isPress i).foldl State.deliverRelease s1
  (accepted.filter isPress).foldl State.deliverPress s2

/-- One whole scan (R22). -/
def State.scan (s : State) (closed : List Nat) : State :=
  (s.setMsc s.msc.startScan).finishScan closed

/-- Entry to RUN: every contact RELEASED with counter 0, shift count 0, and the scan timer started (R31). DEDUCED (log
entry 21): a scan of the RUN before that is still under way ends here, since a button held at the entry is accepted n scans
after it at the earliest. -/
def MatrixScanner.start (m : MatrixScanner) : MatrixScanner :=
  { m with contacts := List.replicate 192 .reset, shiftCount := 0, scanTimer := m.period, scanning := false }

/-- The scan timer stops as the station leaves RUN, for RELOADING or for FAULT (R21, R31). A scan under way goes on and is
completed (R22). -/
def MatrixScanner.stop (m : MatrixScanner) : MatrixScanner :=
  { m with scanTimer := none }

end Sys2Proof.Machine
end

