-- ==== Sys2Proof/Machine/Control.lean ====
section
/-! DEFINITION. Station Control and the Start Loader (chapter 11): FAULT, LOADING, JOINING, RUN, RELOADING, the drain and
the answers to queries. -/

namespace Sys2Proof.Machine

/-! ## FAULT (R175) -/

/-- The station enters FAULT: the reason is set, the join and drain timers stop, every block stops and keeps its values,
and an attempt in flight is abandoned (R175, R21, R34, R137, R138, R162). DEDUCED (log entry 13): an outstanding request
and held events stay, unread. -/
def State.enterFault (s : State) (reason : FaultReason) : State :=
  { s with
    stc := { s.stc with station := .fault, faultReason := reason, joinTimer := none, drainTimer := none }
    stl := { s.stl with port := .idle }
    msc := s.msc.stop
    blw := s.blw.stop
    ofu := { s.ofu with livenessTimer := none }
    ptb := { s.ptb with presenceTimer := none }
    lkc := { s.lkc with tx := none, driven := [], linkDropTimer := none } }

/-! ## LOADING (R164, R165) -/

/-- At the start of LOADING for a reload an attempt in flight is carried on to its end, unreported (R162). -/
def Attempt.carry (a : Attempt) : Attempt :=
  { a with source := .carried, rewritten := false, withdraw := false }

/-- The start of LOADING (R165): the blocks take the values their chapters give for it, the Bellows Unit its settings
among them (R48), the counters and the link rate stand (R146, R169), and the Start Loader begins to read. DEDUCED (log entry 8): a value for which no chapter names the
start of LOADING keeps what it holds until a good record replaces it. -/
def State.startLoading (s : State) : State :=
  { s with
    stc := { StationControl.reset with counters := s.stc.counters }
    stl := { s.stl with port := .header }
    mst := .reset
    msc := s.msc.stop
    blw := .reset
    grf := .reset
    plu := { PlacementUnit.reset with holdTime := s.plu.holdTime }
    nrs := .reset
    lvu := .reset
    ofu := .reset
    ptb := .reset
    lkc := { LinkController.reset with
      linkRate := s.lkc.linkRate
      tx := s.lkc.tx.map Attempt.carry
      driven := if s.lkc.tx.isSome then s.lkc.driven else [] } }

/-- The first four bytes of the memory image have been read (R165): an image of all FFH is blank. -/
def State.readHeader (s : State) (b0 b1 b2 b3 : Byte) : State :=
  if b0 = 0xFF#8 ∧ b1 = 0xFF#8 ∧ b2 = 0xFF#8 ∧ b3 = 0xFF#8 then s.enterFault .blank
  else s.setStl { s.stl with port := .record b0 b1 b2 b3 }

/-- The slots an entry adds to the slot-use mask (R167). -/
def MapStore.entryUses (m : MapStore) (k : Slot) : MapEntry → Bool
  | .note f => f.slot == k
  | .chord f t => f.slot == k || (m.template t).any fun n => n.fixedSlot == some k
  | .empty => false
  | .aliasTo _ => false

/-- The slot-use mask the Start Loader computes from the map (R167). -/
def MapStore.slotUse (m : MapStore) : SlotMask :=
  maskOf fun k => m.map.any (m.entryUses k)

/-- The fields of a good record written into the blocks (R166, R167, R176). -/
def State.writeRecord (s : State) (img : List Byte) : State :=
  let mst : MapStore := ⟨mapOf img, templatesOf img, registrationsOf img⟩
  { s with
    stl := { port := .idle, ownAddress := imageNat img 2, slotUse := mst.slotUse }
    mst := mst
    msc := { s.msc with
      driveCount := clampNat 1 16 (imageNat img 8)
      senseCount := clampNat 1 12 (imageNat img 9)
      scanCode := clampNat 1 8 (imageNat img 10)
      debounceCount := clampNat 1 8 (imageNat img 11)
      plan := planOf img }
    blw := { s.blw with settings := bellowsSettingsOf img }
    grf := { s.grf with ownGroup := imageNat img 3, registrationMode := modeOf img }
    plu := { s.plu with holdTime := 10 * clampNat 0 200 (imageNat img 19) }
    lvu := { s.lvu with threshold := clampNat 1 8 (imageNat img 20) } }

/-- The end of a good LOADING (R122, R130, R133, R96): the slot table is built from the default offer, the shares and
limits and the section levels are computed, and the liveness timer starts with 2000 ms. -/
def State.finishLoading (s : State) (img : List Byte) : State :=
  ((s.setOfu { s.ofu with
    table := tableOf (defaultOffer img)
    engine := .unheard
    livenessTimer := some (ms 2000) }).recomputeLimits).recomputeLevels

/-! ## JOINING (R150, R168) -/

/-- The link rate is settled (R150): listening ends, the PRESENCE entry is written (R138) and the join timer is loaded
with 350 ms (R168). -/
def State.settleRate (s : State) (rate : LinkRate) : State :=
  let s1 := s.setLkc { s.lkc with linkRate := some rate, listening := false, listenTimer := none }
  let s2 := s1.writePresence
  s2.setStc { s2.stc with joinTimer := some (ms 350) }

/-- The source mode is decided and, at a FOLLOW station, BELLOWS LOST enters the trouble set; a bellows-role station
begins zeroing (R105, R110, R34). DEDUCED (log entry 11): both come before the PRESENCE of a rate settled here. -/
def State.startJoining (s : State) : State :=
  let s1 := s.setStc { s.stc with station := .joining }
  if s1.blw.settings.role then
    (s1.setGrf { s1.grf with sourceMode := .localUnit }).setBlw s1.blw.startZeroing
  else (s1.setGrf { s1.grf with sourceMode := .follow }).setBellowsLost true

/-- Entry to JOINING (R168): a rate in use is kept (R150), a fixed code settles at the entry, and AUTO listens for at
most 300 ms. -/
def State.enterJoining (s : State) (code : Option LinkRate) : State :=
  let s1 := s.startJoining
  match s.lkc.linkRate, code with
  | some rate, _ => s1.settleRate rate
  | none, some rate => s1.settleRate rate
  | none, none => s1.setLkc { s1.lkc with listening := true, listenTimer := some (ms 300) }

/-- The whole start record has been read (R166). -/
def State.readRecord (s : State) (img : List Byte) : State :=
  if goodRecord img then ((s.writeRecord img).finishLoading img).enterJoining (rateOf img)
  else s.enterFault .badRecord

/-! ## RUN (R168) -/

/-- Entry to RUN (R168, R31, R46, R138). -/
def State.enterRun (s : State) : State :=
  let s1 := s.setStc { s.stc with station := .run, joinTimer := none }
  let s2 := (s1.setMsc s1.msc.start).writePresence
  if s2.bellowsWrites then s2.writeBellows else s2

/-! ## RELOADING (R173) -/

/-- The STATUS entry is written with a response, the station state and the counters of the moment (R171). -/
def State.writeStatus (s : State) (r : Response) : State :=
  s.writeEntry .status (.status r s.stc.station s.stc.counters)

/-- The drain ends, and LOADING starts, once the note queue and the STATUS entry are both empty (R173). -/
def State.testDrain (s : State) : State :=
  if s.stc.station = .reloading ∧ s.lkc.noteQueue = [] ∧ s.lkc.updates.status = none then s.startLoading else s

/-- RELOADING begins (R173): the scan timer stops, the Bellows Unit goes to OFF, the join timer stops, a panic is taken,
STATUS and PRESENCE are written, the drain timer is loaded with 100 ms, and the drain is tested. -/
def State.enterReloading (s : State) : State :=
  let s1 := s.setStc { s.stc with station := .reloading, joinTimer := none }
  let s2 := ((s1.setMsc s1.msc.stop).setBlw s1.blw.stop).panic
  let s3 := (s2.writeStatus .ack).writePresence
  (s3.setStc { s3.stc with drainTimer := some (ms 100) }).testDrain

/-! ## Queries (R170) -/

/-- A QUERY handed to Station Control (R170): where it targets this station, the response is decided, the query acted
on, and the STATUS entry written. -/
def State.takeQuery (s : State) (f : RxFrame) : State :=
  let target := (f.byte 0).toNat
  if target = 0 ∨ target = s.stl.ownAddress then
    match (f.byte 1).toNat with
    | 0 => s.writeStatus .ack
    | 1 => s.panic.writeStatus .ack
    | 2 => if s.stc.station = .reloading then s.writeStatus .busy else s.enterReloading
    | _ => s.writeStatus .nak
  else s

end Sys2Proof.Machine
end

