-- ==== Sys2Proof/Machine/Receive.lean ====
section
/-! DEFINITION. The receiver (section 10.5): how a frame read from the line is judged and taken, and the delivery of the
oldest frame of the receive buffer. -/

namespace Sys2Proof.Machine

/-- The receiver reads the line at this rate: at all four while listening, and otherwise at the settled rate alone
(R150, R151, R153). DEDUCED (log entry 12): a broken frame counts while listening too. -/
def State.receives (s : State) (rate : LinkRate) : Bool :=
  s.working && (s.lkc.listening || s.lkc.linkRate == some rate)

/-- The valid frame `f` is the station's own transmission (R145, R152): it is the frame that the station drives, or has
just driven with success. DEDUCED (log entry 19): a valid frame equals the one driven just when every bit of it reads as
sent, so that the attempt that drove it has succeeded or is about to. -/
def State.isOwn (s : State) (f : RxFrame) : Bool :=
  match readFrame s.lkc.driven with
  | some d => d.frame == f
  | none => false

/-- The station's own transmission is taken: it is not delivered and not counted (R152). Where its attempt has ended, no
further frame is that transmission. -/
def State.takeOwn (s : State) : State :=
  if s.lkc.tx.isSome then s else s.setLkc { s.lkc with driven := [] }

/-- A valid frame taken at its arrival, in the order of the cases of R152. -/
def State.takeValid (s : State) (f : RxFrame) : State :=
  if s.isOwn f then s.takeOwn
  else if f.sender = s.stl.ownAddress then s.enterFault .addressConflict
  else if f.sender = 0 ∨ f.sender = 13 then s
  else if 4 ≤ s.lkc.rxBuffer.length then s.countReceiveError
  else s.setLkc { s.lkc with rxBuffer := s.lkc.rxBuffer ++ [f] }

/-- Line activity taken by the receiver (R150 to R152): what does not begin as a frame after an idle line is neither
delivered nor counted, a frame that fails a check counts RECEIVE ERRORS, and a valid one first settles the rate while
listening. -/
def State.receiveBits (s : State) (rate : LinkRate) (bits : List Bool) (afterIdle : Bool) : State :=
  if afterIdle && s.receives rate then
    match readFrame bits with
    | none => s
    | some r =>
      if r.valid then (if s.lkc.listening then s.settleRate rate else s).takeValid r.frame
      else s.countReceiveError
  else s

/-- The sender is a station's link address (R153). -/
def RxFrame.fromStation (f : RxFrame) : Bool :=
  1 ≤ f.sender && f.sender ≤ 12

/-- A frame handed on (R153): first its evidence, to the Peer Table and, from address 15, to the Offer Unit; then the
block that its kind and sender call for. The declarations of a PRESENCE are taken with its evidence (R142). DESIGN CHOICE
(log entry 25): the Offer Unit takes the engine's evidence before Station Control takes a QUERY from address 15. -/
def State.handOn (s : State) (f : RxFrame) : State :=
  let s1 := s.peerEvidence f
  let s2 := if f.sender = 15 then s1.engineEvidence else s1
  if f.kind = kindBellows then (if f.fromStation then s2.takeBellows f else s2)
  else if f.kind = kindRegistration then (if f.fromStation then s2.takeRegistration f else s2)
  else if f.kind = kindOffer then s2.takeOffer f
  else if f.kind = kindAlert then s2.takeAlert f
  else if f.kind = kindQuery then s2.takeQuery f
  else s2

/-- A delivery (R153): the oldest frame leaves the receive buffer and is handed on. A delivery command names the kind of
frame it delivers by `p`; where the station delivers nothing, or the oldest frame is of another kind, the event does
not occur. -/
def State.deliver (s : State) (p : RxFrame → Bool) : State :=
  if s.working then
    match s.lkc.rxBuffer with
    | [] => s
    | f :: rest => if p f then (s.setLkc { s.lkc with rxBuffer := rest }).handOn f else s
  else s

/-- The action code of a QUERY (section 12.3). -/
def RxFrame.action (f : RxFrame) : Nat :=
  (f.byte 1).toNat

/-- The kinds that go to no block beyond the Peer Table: NOTE START, NOTE END, BOW, LEVEL, STATUS REPORT and 11..15
(R153; log entry 16). -/
def RxFrame.untaken (f : RxFrame) : Bool :=
  f.kind == kindNoteStart || f.kind == kindNoteEnd || f.kind == kindBow || f.kind == kindLevel ||
    f.kind == kindStatus || 11 ≤ f.kind

end Sys2Proof.Machine
end

