-- ==== Sys2Proof/Machine/Transmit.lean ====
section
/-! DEFINITION. The transmitter (sections 10.7 and 10.8): the arbiter's choice, the end of an attempt, and the report of
its result to the block that owns the frame. -/

namespace Sys2Proof.Machine

/-! ## The arbiter's choice (R156) -/

/-- The keys of the update table that stand behind the note queue, in the arbiter's order. -/
def keysAfterQueue : List TableKey :=
  .registration :: slots.map .level ++ [.status, .presence]

/-- An attempt of a waiting frame. -/
def attemptOf (source : TxSource) (frame : OutFrame) (failures : Nat) : Attempt :=
  ⟨source, frame, failures, false, false⟩

/-- An attempt of the entry of a key, where it holds a value. -/
def UpdateTable.attempt (t : UpdateTable) (key : TableKey) : Option Attempt :=
  (t.get key).map fun e => attemptOf (.table key) e.frame e.failures

/-- The attempt that the arbiter's choice begins: the first present of the BELLOWS entry, the head of the note queue,
and the other entries in their order (R156). -/
def LinkController.choice (l : LinkController) : Option Attempt :=
  match l.updates.attempt .bellows with
  | some a => some a
  | none =>
    match l.noteQueue with
    | q :: _ => some (attemptOf .queueHead (.note q.frame) q.failures)
    | [] => keysAfterQueue.findSome? l.updates.attempt

/-- The bits that an attempt drives, with the own address of its beginning as sender (R148); none where none begins. -/
def drivenBits (ownAddress : Nat) : Option Attempt → List Bool
  | some a => a.frame.bits ownAddress
  | none => []

/-- An attempt may begin: in JOINING, RUN and RELOADING, with the rate settled. None begins in LOADING or FAULT (R162),
nor while listening (R150). -/
def State.mayTransmit (s : State) : Bool :=
  s.working && !s.lkc.listening && s.lkc.linkRate.isSome

/-- An idle moment (R156): with the transmitter FREE and the rate settled, the chosen frame's attempt begins. The line
has carried no frame since the one before it ended, so no frame still to be taken is the station's own (log entry 19).
DESIGN CHOICE (log entry 23): what follows the beginning of an attempt falls together with no restart report before it. -/
def State.idle (s : State) : State :=
  if s.lkc.tx.isSome then s
  else
    let tx := if s.mayTransmit then s.lkc.choice else none
    let s1 := if tx.isSome then s.setLvu s.lvu.momentPasses else s
    s1.setLkc { s1.lkc with tx := tx, driven := drivenBits s.stl.ownAddress tx }

/-! ## The result of an attempt (R156 to R159) -/

/-- How an attempt ended (R156). -/
inductive AttemptResult where
  /-- In the arbitration field the line read dominant where the station sent recessive. -/
  | lostArbitration
  /-- Any other mismatch between a bit sent and a bit read. -/
  | failure
  /-- Every bit read as sent, to the last bit of the end field. -/
  | success
deriving DecidableEq, Repr

/-- Bit `i` of a frame belongs to its arbitration field (section 12.2). -/
def inArbitration (i : Nat) : Bool :=
  9 ≤ i && i < 19

/-- The bits sent from bit `i` of the frame on compared with the bits read (R156): the attempt ends at the first that
differ, and otherwise at the last bit sent. `none` says that it has not ended within the bits read. -/
def resultFrom (i : Nat) : List Bool → List Bool → Option AttemptResult
  | [], _ => some .success
  | _ :: _, [] => none
  | sent :: rest, read :: more =>
    if sent = read then resultFrom (i + 1) rest more
    else if sent && inArbitration i then some .lostArbitration
    else some .failure

/-- How the attempt that sent `sent` ended, where `read` was read on the line (R156). -/
def attemptResult (sent read : List Bool) : Option AttemptResult :=
  resultFrom 0 sent read

/-- The three results a report names (R159). -/
inductive AttemptOutcome where
  | transmitted
  | dropped
  | unsuccessful
deriving DecidableEq, Repr

/-- The result of an attempt whose frame had failed `failures` times before it (R157, R158). -/
def outcomeOf (failures : Nat) : AttemptResult → AttemptOutcome
  | .success => .transmitted
  | .lostArbitration => .unsuccessful
  | .failure => if failures + 1 < 16 then .unsuccessful else .dropped

/-- The failure count after an attempt that ended without success (R157, R158). -/
def failuresAfter (failures : Nat) : AttemptResult → Nat
  | .failure => failures + 1
  | .success | .lostArbitration => failures

/-- A drop is counted, LINK DROP enters the trouble set and its timer is loaded with 1000 ms (R158). -/
def State.recordDrop (s : State) (o : AttemptOutcome) : State :=
  if o = .dropped then
    let s1 := s.countTransmitFailure.setLinkDrop true
    s1.setLkc { s1.lkc with linkDropTimer := some (ms 1000) }
  else s

/-! ## The end of an attempt of an update-table entry (R155, R160) -/

/-- The entry of the key after the attempt `a` ended (R155, R160): a success or a drop empties it unless it was written
during the attempt, and a removal held against it lapses; an end without success empties it where a removal is held. -/
def entryAfter (e : Option TableEntry) (a : Attempt) (r : AttemptResult) : Option TableEntry :=
  match outcomeOf a.failures r with
  | .transmitted | .dropped => if a.rewritten then e else none
  | .unsuccessful =>
    if a.withdraw then none
    else if a.rewritten then e
    else e.map fun e => { e with failures := failuresAfter a.failures r }

/-- The end of an attempt of an update-table entry, reported to the Level Unit for a LEVEL entry (R159, R101). -/
def State.endTableAttempt (s : State) (key : TableKey) (a : Attempt) (r : AttemptResult) : State :=
  let s1 := (s.putEntry key (entryAfter (s.lkc.updates.get key) a r)).recordDrop (outcomeOf a.failures r)
  match key with
  | .level k => s1.levelAttemptEnded k
  | .bellows | .registration | .status | .presence => s1

/-! ## The end of an attempt of a note frame (R86 to R88, R116, R160) -/

/-- The owed BOW, if any, is queued at the end of the note queue and cleared (R116). -/
def State.payOwedBow (s : State) : State :=
  match s.plu.owedBow with
  | none => s
  | some (d, mask) => (s.enqueue (.bow d mask)).setPlu { s.plu with owedBow := none }

/-- A NOTE START or REFRESH-START has gone out, or counts as gone out (R86). -/
def State.startGoneOut (s : State) (tag : Nat) : State :=
  match s.entry? tag with
  | none => s
  | some e =>
    if e.active then s.mapEntry tag fun e => { e with state := .sounding, queued := .noFrame }
    else s.queueStop tag (e.endArticulation.getD .normal)

/-- The report "transmitted" or "dropped" for a note frame (R86, R87, R116). -/
def State.noteGoneOut (s : State) : NoteFrame → State
  | .start tag _ _ _ _ => s.startGoneOut tag
  | .refreshStart tag _ _ _ => s.startGoneOut tag
  | .stop tag _ => (s.freeEntry tag).retryWaiting
  | .bow _ _ => s.payOwedBow

/-- The report "ended without success" for a note frame (R88, R116). DEDUCED (log entry 24): a request that waited for the
attempt of a NOTE END is handled again within the step in which that attempt ends, before a next attempt can begin, though
R77 allows the next attempt to begin first. -/
def State.noteNotGoneOut (s : State) : NoteFrame → State
  | .start tag _ _ _ _ =>
    match s.entry? tag with
    | none => s
    | some e => if e.active then s else (s.withdrawTag tag).freeEntry tag
  | .refreshStart tag _ _ _ =>
    match s.entry? tag with
    | none => s
    | some e => if e.active then s else (s.withdrawTag tag).queueStop tag (e.endArticulation.getD .normal)
  | .stop _ _ => s.retryWaiting
  | .bow _ _ => if s.plu.owedBow.isSome then s.withdrawBow.payOwedBow else s

/-- The end of an attempt of the head of the note queue (R157, R158, R160): it leaves the queue when transmitted or
dropped, or by a pending withdrawal; otherwise it keeps its place with its failure count. -/
def State.endQueueAttempt (s : State) (a : Attempt) (r : AttemptResult) : State :=
  match s.lkc.noteQueue with
  | [] => s
  | q :: rest =>
    match outcomeOf a.failures r with
    | .unsuccessful =>
      if a.withdraw then (s.mapQueue fun _ => rest).noteNotGoneOut q.frame
      else (s.mapQueue fun _ => ⟨q.frame, failuresAfter a.failures r⟩ :: rest).noteNotGoneOut q.frame
    | o => ((s.mapQueue fun _ => rest).recordDrop o).noteGoneOut q.frame

/-- The end of the attempt in flight (R159): the transmitter becomes FREE, the frame leaves or stays, the owner takes
the report, and in RELOADING the drain is tested (R173). A carried attempt is reported to no block (R162). The bits of a
frame whose attempt succeeded are kept for the receiver (R145). -/
def State.endAttempt (s : State) (r : AttemptResult) : State :=
  match s.lkc.tx with
  | none => s
  | some a =>
    let s1 := s.setLkc { s.lkc with tx := none, driven := if r = .success then s.lkc.driven else [] }
    match a.source with
    | .carried => s1
    | .table key => (s1.endTableAttempt key a r).testDrain
    | .queueHead => (s1.endQueueAttempt a r).testDrain

/-- The end of the attempt in flight, as the bits sent and the bits read tell it (R156). Where they tell no end the
event does not occur. -/
def State.attemptEnd (s : State) (read : List Bool) : State :=
  match attemptResult s.lkc.driven read with
  | some r => s.endAttempt r
  | none => s

end Sys2Proof.Machine
end

