-- ==== Sys2Proof/Machine/StartUp.lean ====
section
/-! DEFINITION. The meanings of the start-up and reload commands: RESET, the reads of the start record, and the listen,
join and drain timers. -/

namespace Sys2Proof.Machine

abbrev Result := Host.Outcome State Fault Refusal

/-- A reset-pin event (R164): every block takes its after-reset values in every state, and RESET is low. -/
def State.resetPin (s : State) : State :=
  { State.reset with pending := s.pending }

/-- The rising edge of RESET (R164, R165): the station enters LOADING. -/
def State.risingEdge (s : State) : State :=
  if s.resetLow then { State.reset.startLoading with resetLow := false, pending := s.pending } else s

/-- The first four bytes are read (R165), where the Start Loader waits for them. -/
def State.headerRead (s : State) (b0 b1 b2 b3 : Byte) : State :=
  if s.stc.station = .loading ∧ s.stl.port = .header then s.readHeader b0 b1 b2 b3 else s

/-- The whole record is read (R166), where the Start Loader waits for it. -/
def State.recordRead (s : State) (rest : List Byte) : State :=
  match s.stc.station, s.stl.port with
  | .loading, .record b0 b1 b2 b3 => s.readRecord (b0 :: b1 :: b2 :: b3 :: rest)
  | _, _ => s

/-- The listen timer expires (R150): the link rate becomes 1000 kbit/s. -/
def State.listenExpiry (s : State) : State :=
  if s.stc.station = .joining ∧ s.lkc.listening = true ∧ s.lkc.listenTimer.running = true then
    s.settleRate .kbit1000
  else s

/-- The join timer expires (R168). -/
def State.joinExpiry (s : State) : State :=
  if s.stc.station = .joining ∧ s.stc.joinTimer.running = true then s.enterRun else s

/-- The drain timer expires (R173). -/
def State.drainExpiry (s : State) : State :=
  if s.stc.station = .reloading ∧ s.stc.drainTimer.running = true then s.startLoading else s

/-- RESET_PIN_EVENT. -/
def execResetPinEvent (s : State) : Result :=
  .next s.resetPin

/-- RESET_RISING_EDGE. -/
def execResetRisingEdge (s : State) : Result :=
  .next s.risingEdge

/-- START_RECORD_HEADER_READ. -/
def execStartRecordHeaderRead (b0 b1 b2 b3 : Byte) (s : State) : Result :=
  .next (s.whenUp fun s => s.headerRead b0 b1 b2 b3)

/-- START_RECORD_READ. -/
def execStartRecordRead (rest : List Byte) (s : State) : Result :=
  .next (s.whenUp fun s => s.recordRead rest)

/-- LISTEN_TIMER_EXPIRY. -/
def execListenTimerExpiry (s : State) : Result :=
  .next (s.whenUp State.listenExpiry)

/-- JOIN_TIMER_EXPIRY. -/
def execJoinTimerExpiry (s : State) : Result :=
  .next (s.whenUp State.joinExpiry)

/-- DRAIN_TIMER_EXPIRY. -/
def execDrainTimerExpiry (s : State) : Result :=
  .next (s.whenUp State.drainExpiry)

end Sys2Proof.Machine
end

