-- ==== Sys2Proof/Machine/Sensing.lean ====
section
/-! DEFINITION. The meanings of the sensing commands: the scan, the sample timer, the sensor's answer and the heartbeat
timer. -/

namespace Sys2Proof.Machine

/-- The scan timer expires, so that a scan may start: the timer runs only in RUN, and the transitions of the scan before
are delivered before the next scan is started (R21, R22). -/
def State.mayScan (s : State) : Bool :=
  s.stc.station == .run && s.msc.scanTimer.running && !s.msc.scanning

/-- The scan timer expires (R21, R22). A scan started in RUN and still under way as the station leaves RUN is completed in
whatever state the station is in then, and its transitions are delivered; what a receiver does with them there is its own
(R49, R105, R119). -/
def State.scanExpiry (s : State) : ScanPart → State
  | .whole closed => if s.mayScan then s.scan closed else s
  | .start => if s.mayScan then s.setMsc s.msc.startScan else s
  | .finish closed => if s.msc.scanning = true then s.finishScan closed else s

/-- The sample timer expires (R35): an outstanding conversion is missed, and a new one is started. -/
def State.sampleExpiry (s : State) : State :=
  if s.blw.phase ≠ .off ∧ s.blw.sampleTimer.running = true then
    let s1 := if s.blw.outstanding then s.missSample else s
    s1.setBlw s1.blw.convert
  else s

/-- The sensor answers (R36): a late answer, one for which no conversion is outstanding, or one that arrives while the
unit is OFF is discarded. -/
def State.sensorAnswer (s : State) (count : BitVec 16) (late : Bool) : State :=
  if s.blw.phase ≠ .off ∧ s.blw.outstanding = true ∧ late = false then s.takeSample count.toInt else s

/-- The heartbeat timer expires (R46). -/
def State.heartbeatExpiry (s : State) : State :=
  if s.bellowsWrites = true ∧ s.blw.heartbeat.running = true then s.writeBellows else s

/-- SCAN_TIMER_EXPIRY. -/
def execScanTimerExpiry (scan : ScanPart) (s : State) : Result :=
  .next (s.whenUp fun s => s.scanExpiry scan)

/-- SAMPLE_TIMER_EXPIRY. -/
def execSampleTimerExpiry (s : State) : Result :=
  .next (s.whenUp State.sampleExpiry)

/-- SENSOR_SAMPLE. -/
def execSensorSample (count : BitVec 16) (late : Bool) (s : State) : Result :=
  .next (s.whenUp fun s => s.sensorAnswer count late)

/-- HEARTBEAT_TIMER_EXPIRY. -/
def execHeartbeatTimerExpiry (s : State) : Result :=
  .next (s.whenUp State.heartbeatExpiry)

end Sys2Proof.Machine
end

