-- ==== Sys2Proof/Machine/Timers.lean ====
section
/-! DEFINITION. The meanings of the other timers' expiries: freshness, breath hold, staccato, presence, peers, engine
liveness and LINK DROP; and the passing of time. An expiry command says that the timer has run out (log entry 2); a
timer that is not RUNNING cannot run out, and nothing happens. -/

namespace Sys2Proof.Machine

/-- The stale timer expires (R109): FRESH becomes STALE, the values held. -/
def State.staleExpiry (s : State) : State :=
  if s.working = true ∧ s.grf.staleTimer.running = true ∧ s.grf.freshness = .fresh then
    s.setGrf { s.grf with freshness := .stale, staleTimer := none }
  else s

/-- The lost timer expires (R109): STALE becomes LOST with L = 0. -/
def State.lostExpiry (s : State) : State :=
  if s.working = true ∧ s.grf.lostTimer.running = true ∧ s.grf.freshness = .stale then s.sourceLost else s

/-- The breath timer expires (R117, R118): the fade is taken, or held while a request is outstanding (R58). -/
def State.breathExpiry (s : State) : State :=
  if s.playing = true ∧ s.plu.breathTimer.running = true then
    (s.setPlu { s.plu with breathTimer := none }).placementEvent .breathExpiry
  else s

/-- A staccato deadline expires (R85): the entry is ended NORMAL as a victim, whatever its holders. -/
def State.staccatoExpiry (s : State) (tag : Nat) : State :=
  if s.playing then
    match s.entry? tag with
    | none => s
    | some e => if e.active ∧ e.deadline.running = true then s.endVictim tag .normal else s
  else s

/-- The presence timer expires (R138). -/
def State.presenceExpiry (s : State) : State :=
  if s.working = true ∧ s.ptb.presenceTimer.running = true then s.writePresence else s

/-- A peer's expiry timer runs out (R143). -/
def State.peerExpiry (s : State) (address : Nat) : State :=
  if s.working = true ∧ (s.ptb.peer address).live = true ∧ (s.ptb.peer address).expiry.running = true then
    s.expirePeer address
  else s

/-- The engine liveness timer expires (R134). -/
def State.livenessExpiry (s : State) : State :=
  if s.working = true ∧ s.ofu.livenessTimer.running = true then
    (s.setOfu { s.ofu with engine := .absent, livenessTimer := none }).setEngineAbsent true
  else s

/-- The LINK DROP timer expires (R158). -/
def State.linkDropExpiry (s : State) : State :=
  if s.working = true ∧ s.lkc.linkDropTimer.running = true then
    (s.setLkc { s.lkc with linkDropTimer := none }).setLinkDrop false
  else s

/-! ## The passing of time -/

/-- Half a millisecond passes for every timer that runs (log entry 1), and the moment of a restart report is over (log
entry 23). In FAULT every block has stopped, and while RESET is low every timer is STOPPED (R175, R164). -/
def State.elapse (s : State) : State :=
  if s.resetLow || s.stc.station == .fault then s
  else
    { s with
      stc := { s.stc with joinTimer := s.stc.joinTimer.tick, drainTimer := s.stc.drainTimer.tick }
      msc := { s.msc with scanTimer := s.msc.scanTimer.tick }
      blw := { s.blw with sampleTimer := s.blw.sampleTimer.tick, heartbeat := s.blw.heartbeat.tick }
      grf := { s.grf with staleTimer := s.grf.staleTimer.tick, lostTimer := s.grf.lostTimer.tick }
      plu := { s.plu with breathTimer := s.plu.breathTimer.tick }
      nrs := { s.nrs with roster := s.nrs.roster.map fun e => { e with deadline := e.deadline.tick } }
      lvu := s.lvu.momentPasses
      ofu := { s.ofu with livenessTimer := s.ofu.livenessTimer.tick }
      ptb := { s.ptb with
        presenceTimer := s.ptb.presenceTimer.tick
        peers := s.ptb.peers.map fun p => { p with expiry := p.expiry.tick } }
      lkc := { s.lkc with
        listenTimer := s.lkc.listenTimer.tick
        linkDropTimer := s.lkc.linkDropTimer.tick } }

/-! ## The commands -/

/-- STALE_TIMER_EXPIRY. -/
def execStaleTimerExpiry (s : State) : Result :=
  .next (s.whenUp State.staleExpiry)

/-- LOST_TIMER_EXPIRY. -/
def execLostTimerExpiry (s : State) : Result :=
  .next (s.whenUp State.lostExpiry)

/-- BREATH_TIMER_EXPIRY. -/
def execBreathTimerExpiry (s : State) : Result :=
  .next (s.whenUp State.breathExpiry)

/-- STACCATO_DEADLINE_EXPIRY. -/
def execStaccatoDeadlineExpiry (tag : Nat) (s : State) : Result :=
  .next (s.whenUp fun s => s.staccatoExpiry tag)

/-- PRESENCE_TIMER_EXPIRY. -/
def execPresenceTimerExpiry (s : State) : Result :=
  .next (s.whenUp State.presenceExpiry)

/-- PEER_EXPIRY. -/
def execPeerExpiry (address : Nat) (s : State) : Result :=
  .next (s.whenUp fun s => s.peerExpiry address)

/-- ENGINE_LIVENESS_TIMER_EXPIRY. -/
def execEngineLivenessTimerExpiry (s : State) : Result :=
  .next (s.whenUp State.livenessExpiry)

/-- LINK_DROP_TIMER_EXPIRY. -/
def execLinkDropTimerExpiry (s : State) : Result :=
  .next (s.whenUp State.linkDropExpiry)

end Sys2Proof.Machine
end

