-- ==== Sys2Proof/Machine/LinkEvents.lean ====
section
/-! DEFINITION. The meanings of the line's commands: an idle moment, the end of an attempt, and a frame read. -/

namespace Sys2Proof.Machine

/-- IDLE_MOMENT. -/
def execIdleMoment (s : State) : Result :=
  .next (s.whenUp State.idle)

/-- ATTEMPT_END. -/
def execAttemptEnd (read : List Bool) (s : State) : Result :=
  .next (s.whenUp fun s => s.attemptEnd read)

/-- FRAME_RECEIVED. -/
def execFrameReceived (rate : LinkRate) (bits : List Bool) (afterIdle : Bool) (s : State) : Result :=
  .next (s.whenUp fun s => s.receiveBits rate bits afterIdle)

end Sys2Proof.Machine
end

