-- ==== Sys2Proof/Machine/Deliveries.lean ====
section
/-! DEFINITION. The meanings of the delivery commands (R153): each delivers the oldest received frame when it is of the
kind the command names, and the one event of the delivery does all that R153 and the owning chapters give that frame.
An ENGINE ALERT with several flags is one delivery, which any command of one of its flags names (log entry 5). -/

namespace Sys2Proof.Machine

/-- An ENGINE ALERT with the flag of bit `i`. -/
def RxFrame.alertWith (i : Nat) (f : RxFrame) : Bool :=
  f.kind == kindAlert && f.alertFlag i

/-- A QUERY with this action code. -/
def RxFrame.queryWith (code : Nat) (f : RxFrame) : Bool :=
  f.kind == kindQuery && f.action == code

/-- BELLOWS_FRAME. -/
def execBellowsFrame (s : State) : Result :=
  .next (s.whenUp fun s => s.deliver (·.kind == kindBellows))

/-- REGISTRATION_FRAME. -/
def execRegistrationFrame (s : State) : Result :=
  .next (s.whenUp fun s => s.deliver (·.kind == kindRegistration))

/-- PRESENCE_FRAME. -/
def execPresenceFrame (s : State) : Result :=
  .next (s.whenUp fun s => s.deliver (·.kind == kindPresence))

/-- UNTAKEN_FRAME. -/
def execUntakenFrame (s : State) : Result :=
  .next (s.whenUp fun s => s.deliver RxFrame.untaken)

/-- ENGINE_OFFER_PART. -/
def execEngineOfferPart (s : State) : Result :=
  .next (s.whenUp fun s => s.deliver (·.kind == kindOffer))

/-- ENGINE_ALERT_EXHAUSTED. -/
def execEngineAlertExhausted (s : State) : Result :=
  .next (s.whenUp fun s => s.deliver (RxFrame.alertWith 0))

/-- ENGINE_ALERT_RESTARTED. -/
def execEngineAlertRestarted (s : State) : Result :=
  .next (s.whenUp fun s => s.deliver (RxFrame.alertWith 1))

/-- ENGINE_ALERT_PANIC. -/
def execEngineAlertPanic (s : State) : Result :=
  .next (s.whenUp fun s => s.deliver (RxFrame.alertWith 2))

/-- ENGINE_ALERT_NO_FLAG. -/
def execEngineAlertNoFlag (s : State) : Result :=
  .next (s.whenUp fun s => s.deliver fun f =>
    f.kind == kindAlert && !f.alertFlag 0 && !f.alertFlag 1 && !f.alertFlag 2)

/-- QUERY_STATUS. -/
def execQueryStatus (s : State) : Result :=
  .next (s.whenUp fun s => s.deliver (RxFrame.queryWith 0))

/-- QUERY_PANIC. -/
def execQueryPanic (s : State) : Result :=
  .next (s.whenUp fun s => s.deliver (RxFrame.queryWith 1))

/-- QUERY_RELOAD. -/
def execQueryReload (s : State) : Result :=
  .next (s.whenUp fun s => s.deliver (RxFrame.queryWith 2))

/-- QUERY_OTHER_ACTION. -/
def execQueryOtherAction (s : State) : Result :=
  .next (s.whenUp fun s => s.deliver fun f => f.kind == kindQuery && 3 ≤ f.action)

end Sys2Proof.Machine
end

