-- ==== Sys2Proof/Machine/Dispatch.lean ====
section
/-! DEFINITION. The dispatch of a command to its meaning. -/

namespace Sys2Proof.Machine

def exec (i : Instr) (s : State) : Host.Outcome State Fault Refusal :=
  match i with
  | .resetPinEvent => Sys2Proof.Machine.execResetPinEvent s
  | .resetRisingEdge => Sys2Proof.Machine.execResetRisingEdge s
  | .startRecordHeaderRead b0 b1 b2 b3 => Sys2Proof.Machine.execStartRecordHeaderRead b0 b1 b2 b3 s
  | .startRecordRead rest => Sys2Proof.Machine.execStartRecordRead rest s
  | .listenTimerExpiry => Sys2Proof.Machine.execListenTimerExpiry s
  | .joinTimerExpiry => Sys2Proof.Machine.execJoinTimerExpiry s
  | .scanTimerExpiry scan => Sys2Proof.Machine.execScanTimerExpiry scan s
  | .sampleTimerExpiry => Sys2Proof.Machine.execSampleTimerExpiry s
  | .sensorSample count late => Sys2Proof.Machine.execSensorSample count late s
  | .heartbeatTimerExpiry => Sys2Proof.Machine.execHeartbeatTimerExpiry s
  | .staleTimerExpiry => Sys2Proof.Machine.execStaleTimerExpiry s
  | .lostTimerExpiry => Sys2Proof.Machine.execLostTimerExpiry s
  | .breathTimerExpiry => Sys2Proof.Machine.execBreathTimerExpiry s
  | .staccatoDeadlineExpiry tag => Sys2Proof.Machine.execStaccatoDeadlineExpiry tag s
  | .presenceTimerExpiry => Sys2Proof.Machine.execPresenceTimerExpiry s
  | .peerExpiry address => Sys2Proof.Machine.execPeerExpiry address s
  | .engineLivenessTimerExpiry => Sys2Proof.Machine.execEngineLivenessTimerExpiry s
  | .linkDropTimerExpiry => Sys2Proof.Machine.execLinkDropTimerExpiry s
  | .drainTimerExpiry => Sys2Proof.Machine.execDrainTimerExpiry s
  | .idleMoment => Sys2Proof.Machine.execIdleMoment s
  | .attemptEnd read => Sys2Proof.Machine.execAttemptEnd read s
  | .frameReceived rate bits afterIdle => Sys2Proof.Machine.execFrameReceived rate bits afterIdle s
  | .bellowsFrame => Sys2Proof.Machine.execBellowsFrame s
  | .registrationFrame => Sys2Proof.Machine.execRegistrationFrame s
  | .presenceFrame => Sys2Proof.Machine.execPresenceFrame s
  | .untakenFrame => Sys2Proof.Machine.execUntakenFrame s
  | .engineOfferPart => Sys2Proof.Machine.execEngineOfferPart s
  | .engineAlertExhausted => Sys2Proof.Machine.execEngineAlertExhausted s
  | .engineAlertRestarted => Sys2Proof.Machine.execEngineAlertRestarted s
  | .engineAlertPanic => Sys2Proof.Machine.execEngineAlertPanic s
  | .queryStatus => Sys2Proof.Machine.execQueryStatus s
  | .queryPanic => Sys2Proof.Machine.execQueryPanic s
  | .queryReload => Sys2Proof.Machine.execQueryReload s
  | .queryOtherAction => Sys2Proof.Machine.execQueryOtherAction s
  | .engineAlertNoFlag => Sys2Proof.Machine.execEngineAlertNoFlag s

end Sys2Proof.Machine
end

