-- ==== Sys2Proof/Safety.lean ====
section
/-! DEFINITION. What a safe step is, and the laws of the manual that every step keeps: each is a property of one state,
named after what it says, with the rules it comes from. -/

namespace Sys2Proof

/-- The step at `s` answers a next state. -/
def Safe (s : Machine.State) : Prop :=
  ∃ t, Machine.step s = .next t

namespace Machine

/-- Each status counter lies within 0..65535 (R169). -/
def State.CountersInRange (s : State) : Prop :=
  s.stc.counters.unplacedNotes ≤ 65535 ∧ s.stc.counters.mapMisses ≤ 65535 ∧ s.stc.counters.stolenNotes ≤ 65535 ∧
    s.stc.counters.heldOverflows ≤ 65535 ∧ s.stc.counters.receiveErrors ≤ 65535 ∧
    s.stc.counters.transmitFailures ≤ 65535 ∧ s.stc.counters.engineExhaustions ≤ 65535

/-- The held-button list holds at most 24 records, and no two of one contact (R50, R51). -/
def State.HeldListLawful (s : State) : Prop :=
  s.plu.held.length ≤ 24 ∧ (s.plu.held.map (·.contact)).Nodup

/-- The roster holds at most 32 entries, no two with one tag and no two with one slot and pitch, and its tags and the
next-tag counter lie within 0..255 (R71, R72, R73). -/
def NoteRoster.Lawful (n : NoteRoster) : Prop :=
  n.roster.length ≤ 32 ∧ n.nextTag < 256 ∧ (∀ e ∈ n.roster, e.tag < 256) ∧
    n.roster.Pairwise fun a b => a.tag ≠ b.tag ∧ ¬(a.slot = b.slot ∧ a.pitch = b.pitch)

/-- The roster is empty and no request waits while a start record is being read (R94, R165). -/
def State.RosterEmptyInLoading (s : State) : Prop :=
  s.stc.station = .loading → s.nrs.roster = [] ∧ s.nrs.waiting = none

/-- No slot holds more STARTING and SOUNDING entries than its limit (R78). -/
def State.WithinLimits (s : State) : Prop :=
  s.nrs.Lawful ∧ s.RosterEmptyInLoading ∧ ∀ k : Slot, s.nrs.count k ≤ s.ofu.limit.get k

/-- The shares and limits are those of the slot table, the caps and the peers that declare each slot (R131, R133). -/
def State.LimitsCurrent (s : State) : Prop :=
  ∀ k : Slot, s.ofu.share.get k = shareOf (s.ofu.table.get k) (s.ptb.declaring k) ∧
    s.ofu.limit.get k = limitOf (s.ofu.share.get k) (s.ofu.cap.get k)

/-- The section levels are those of the group level and the current registration (R96). -/
def State.SectionLevelsCurrent (s : State) : Prop :=
  ∀ k : Slot, s.lvu.sectionLevel.get k = s.sectionLevels.get k

/-- The group level, the unit's own level, the curve, the section levels and the values last sent lie within 0..127
(R33, R45, R95, R105). -/
def State.LevelsInRange (s : State) : Prop :=
  s.grf.level ≤ 127 ∧ s.blw.level ≤ 127 ∧ (∀ c ∈ s.blw.settings.curve, c ≤ 127) ∧
    ∀ k : Slot, s.lvu.sectionLevel.get k ≤ 127 ∧ s.lvu.lastSent.get k ≤ 127

/-- A record of the Peer Table: LIVE with its expiry timer running, or ABSENT with nothing known; a known group lies
within 1..4 (section 9.2). -/
def PeerRecord.Lawful (p : PeerRecord) : Prop :=
  p.live = p.expiry.running ∧ (p.live = false → p.declared = none) ∧
    ∀ d, p.declared = some d → 1 ≤ d.group ∧ d.group ≤ 4

/-- The Peer Table keeps one record for each of the addresses 1..12, none of them LIVE for the own address, and all
ABSENT while a start record is being read (R140, R141, R165). -/
def State.PeersLawful (s : State) : Prop :=
  s.ptb.peers.length = 12 ∧ (∀ p ∈ s.ptb.peers, p.Lawful) ∧ (s.ptb.peer s.stl.ownAddress).live = false ∧
    (s.stc.station = .loading → ∀ p ∈ s.ptb.peers, p.live = false)

/-- A frame belongs in the update table's entry of a key. -/
def OutFrame.fits : OutFrame → TableKey → Bool
  | .bellows .., .bellows => true
  | .registration .., .registration => true
  | .level k _, .level k' => k == k'
  | .status .., .status => true
  | .presence .., .presence => true
  | _, _ => false

/-- The receive buffer holds at most 4 frames; every entry of the update table holds a value of its own key; and no
waiting frame has failed 16 times (R152, R155, R158). What an attempt drives is its frame (R156). -/
def State.LinkLawful (s : State) : Prop :=
  s.lkc.rxBuffer.length ≤ 4 ∧
    (∀ key e, s.lkc.updates.get key = some e → e.frame.fits key = true ∧ e.failures < 16) ∧
    (∀ q ∈ s.lkc.noteQueue, q.failures < 16) ∧
    ∀ a, s.lkc.tx = some a → a.failures < 16 ∧ ∃ sender, s.lkc.driven = a.frame.bits sender

/-- The Placement Unit is suspended exactly while a request waits; nothing is owed or held while it is not; and an
answer is owed only to a waiting request (R57, R58, R77, R92). -/
def State.SuspensionLawful (s : State) : Prop :=
  s.plu.suspended.isSome = s.nrs.waiting.isSome ∧
    (s.plu.suspended = none → s.plu.owed = [] ∧ s.plu.heldEvents = []) ∧
    (s.nrs.answerOwed = true → s.nrs.waiting.isSome = true)

/-- The station state, the fault reason and the timers that run only in certain states agree, and no frame waits in the
receive buffer while the rate is not settled (R21, R22, R34, R46, R138, R150, R165, R168, R173, R175). -/
def State.TimersFitStation (s : State) : Prop :=
  (s.stc.faultReason = .noReason ↔ s.stc.station ≠ .fault) ∧
    (s.stc.joinTimer.running = true ↔ s.stc.station = .joining ∧ s.lkc.listening = false) ∧
    (s.stc.drainTimer.running = true ↔ s.stc.station = .reloading) ∧
    (s.lkc.listening = true →
      s.stc.station = .joining ∧ s.lkc.linkRate = none ∧ s.lkc.listenTimer.running = true) ∧
    (s.msc.scanTimer.running = true ↔ s.stc.station = .run) ∧
    (s.resetLow = true → s.msc.scanning = false) ∧
    (s.blw.phase ≠ .off → (s.stc.station = .joining ∨ s.stc.station = .run) ∧ s.blw.settings.role = true) ∧
    (s.blw.sampleTimer.running = true ↔ s.blw.phase ≠ .off) ∧
    (s.blw.heartbeat.running = true ↔ s.stc.station = .run ∧ s.blw.phase = .measuring) ∧
    (s.ptb.presenceTimer.running = true ↔ s.working = true ∧ s.lkc.listening = false) ∧
    (s.lkc.listening = true ∨ s.stc.station = .loading → s.lkc.rxBuffer = [])

/-- In LOADING the blocks that feed the trouble set hold their after-reset values, and an attempt in flight is one that
a reload carries on (R162, R165). -/
def State.QuietInLoading (s : State) : Prop :=
  s.stc.station = .loading →
    s.stc.trouble = .empty ∧ s.blw.phase = .off ∧ s.blw.sensorLost = false ∧ s.grf.freshness = .lost ∧
      s.lkc.linkDropTimer = none ∧ ∀ a, s.lkc.tx = some a → a.source = .carried

/-- While the station works, each condition of the trouble set stands exactly while its cause does, and a LOCAL station
has no freshness to lose (R174, R38, R110, R134, R158). -/
def State.TroubleTrue (s : State) : Prop :=
  s.QuietInLoading ∧
    (s.working = true →
      s.stc.trouble.sensorLost = s.blw.sensorLost ∧
      (s.stc.trouble.bellowsLost = true ↔ s.grf.sourceMode = .follow ∧ s.grf.freshness = .lost) ∧
      (s.stc.trouble.engineAbsent = true ↔ s.ofu.engine = .absent) ∧
      s.stc.trouble.linkDrop = s.lkc.linkDropTimer.running ∧
      (s.grf.sourceMode = .localUnit → s.grf.freshness = .lost))

/-! ## The note queue and the roster (R72, R154) -/

/-- What the queued-frame field of the entry of a note frame says (R72). -/
def NoteFrame.queuedAs : NoteFrame → QueuedFrame
  | .start .. => .start
  | .refreshStart .. => .refreshStart
  | .stop .. => .stop
  | .bow .. => .noFrame

/-- The state, the queued frame, the end articulation and the deadline of an entry stand together as R72 allows. An
entry whose end is owed has its START or REFRESH-START in flight with a withdrawal held against it. -/
def State.EntryLawful (s : State) (e : RosterEntry) : Prop :=
  (e.state = .starting → e.queued = .start) ∧
    (e.state = .sounding → e.queued = .noFrame ∨ e.queued = .refreshStart) ∧
    (e.state = .ending → e.queued ≠ .noFrame) ∧
    (e.state = .ending → e.queued ≠ .stop → s.stc.station ≠ .fault →
      s.tagInFlight e.tag = true ∧ ∀ a, s.lkc.tx = some a → a.withdraw = true) ∧
    (e.endArticulation.isSome = true ↔ e.state = .ending) ∧
    (e.deadline.running = true ↔ e.articulation = .staccato ∧ e.state ≠ .ending)

/-- The note queue holds at most one frame for each entry and at most one BOW; every other frame belongs to an entry
whose queued-frame field names it, and every entry that names a frame has it there (R72, R154). -/
def State.QueueMatchesRoster (s : State) : Prop :=
  (s.lkc.noteQueue.filterMap (·.frame.tag?)).Nodup ∧
    (s.lkc.noteQueue.filter (·.frame.isBow)).length ≤ 1 ∧
    (∀ q ∈ s.lkc.noteQueue, ∀ tag, q.frame.tag? = some tag →
      ∃ e ∈ s.nrs.roster, e.tag = tag ∧ e.queued = q.frame.queuedAs) ∧
    ∀ e ∈ s.nrs.roster, e.queued ≠ .noFrame → ∃ q ∈ s.lkc.noteQueue, q.frame.tag? = some e.tag

/-- An attempt of the note queue is an attempt of its head, and a withdrawal is held against it only while the end of
that head's entry is owed; a request waits only for an attempt of a NOTE END; a stopped station has no attempt (R156,
R160, R77, R175). -/
def State.AttemptLawful (s : State) : Prop :=
  (∀ a, s.lkc.tx = some a → a.source = .queueHead →
    ∃ q, s.lkc.noteQueue.head? = some q ∧ a.frame = .note q.frame ∧
      (a.withdraw = true →
        ∃ e ∈ s.nrs.roster, q.frame.tag? = some e.tag ∧ e.state = .ending ∧ e.queued ≠ .stop)) ∧
    (s.nrs.waiting.isSome = true → s.stc.station ≠ .fault →
      s.queueInFlight = true ∧ ∃ q, s.lkc.noteQueue.head? = some q ∧ q.frame.queuedAs = .stop) ∧
    (s.stc.station = .fault → s.lkc.tx = none)

/-- The roster, the note queue and the attempt in flight agree, and the Level Unit's counts are the roster's (R72, R81,
R93, R99, R154). -/
def State.NotesLawful (s : State) : Prop :=
  s.nrs.Lawful ∧ s.RosterEmptyInLoading ∧ (∀ e ∈ s.nrs.roster, s.EntryLawful e) ∧ s.QueueMatchesRoster ∧
    s.AttemptLawful ∧ ∀ k : Slot, s.lvu.slotCount.get k = s.nrs.count k

/-! ## What a command may change -/

/-- `t` differs from `s` only in the blocks a note passes through: the Placement Unit, the Note Roster, the Level Unit,
the note queue, the update table, the attempt in flight, and the status counters. -/
def State.NotesOnly (s t : State) : Prop :=
  t = { s with
    stc := { s.stc with counters := t.stc.counters }
    plu := t.plu
    nrs := t.nrs
    lvu := t.lvu
    lkc := { s.lkc with noteQueue := t.lkc.noteQueue, updates := t.lkc.updates, tx := t.lkc.tx } }

/-- `t` differs from `s` only in what the deliveries of a scan change (section 2.6): the shift count, the current
registration and what notes pass through. -/
def State.DeliveryOnly (s t : State) : Prop :=
  State.NotesOnly { s with
    msc := { s.msc with shiftCount := t.msc.shiftCount }
    grf := { s.grf with registration := t.grf.registration } } t

/-- The delivery command `c` names the frame `f`: the kind of `f`, and for an ENGINE ALERT a flag it carries and for a
QUERY its action (R153). -/
def delivers (c : Instr) (f : RxFrame) : Bool :=
  match c with
  | .bellowsFrame => f.kind == kindBellows
  | .registrationFrame => f.kind == kindRegistration
  | .presenceFrame => f.kind == kindPresence
  | .untakenFrame => f.untaken
  | .engineOfferPart => f.kind == kindOffer
  | .engineAlertExhausted => f.kind == kindAlert && f.alertFlag 0
  | .engineAlertRestarted => f.kind == kindAlert && f.alertFlag 1
  | .engineAlertPanic => f.kind == kindAlert && f.alertFlag 2
  | .engineAlertNoFlag => f.kind == kindAlert && !f.alertFlag 0 && !f.alertFlag 1 && !f.alertFlag 2
  | .queryStatus => f.kind == kindQuery && f.action == 0
  | .queryPanic => f.kind == kindQuery && f.action == 1
  | .queryReload => f.kind == kindQuery && f.action == 2
  | .queryOtherAction => f.kind == kindQuery && 3 ≤ f.action
  | _ => false

end Machine

end Sys2Proof
end

