-- ==== Sys2Proof/Certificates/Slice0/Obligations.lean ====
section
/-! DEFINITION. The statements for the provers. OBLIGATIONS.json names the rules each one comes from. A statement that
rests on a choice of the model says so and names the log entry. -/

open Sys2Proof Sys2Proof.Machine

/-! ## The queue of commands, time and RESET -/

/-- A step takes the command at the front of the queue, with the queue's rest. -/
def Obligations.StepTakesTheFrontCommand : Prop :=
  ∀ (s : State) (c : Instr) (rest : List Instr),
    step { s with pending := c :: rest } = exec c { s with pending := rest }

/-- The model's choice (log entries 1 and 23, DESIGN CHOICE): on an empty queue half a millisecond passes for every timer
that runs, no recomputation that follows falls together with a restart report before it, and nothing else changes; while
RESET is low and in FAULT nothing changes. -/
def Obligations.EmptyQueueLetsTimersRunOn : Prop :=
  ∀ (s : State), s.pending = [] →
    (s.resetLow = false → s.stc.station ≠ .fault →
      step s = .next { s with
        stc := { s.stc with
          joinTimer := s.stc.joinTimer.map (· - 1)
          drainTimer := s.stc.drainTimer.map (· - 1) }
        msc := { s.msc with scanTimer := s.msc.scanTimer.map (· - 1) }
        blw := { s.blw with
          sampleTimer := s.blw.sampleTimer.map (· - 1)
          heartbeat := s.blw.heartbeat.map (· - 1) }
        grf := { s.grf with
          staleTimer := s.grf.staleTimer.map (· - 1)
          lostTimer := s.grf.lostTimer.map (· - 1) }
        plu := { s.plu with breathTimer := s.plu.breathTimer.map (· - 1) }
        nrs := { s.nrs with roster := s.nrs.roster.map fun e => { e with deadline := e.deadline.map (· - 1) } }
        lvu := { s.lvu with justRestarted := .all false }
        ofu := { s.ofu with livenessTimer := s.ofu.livenessTimer.map (· - 1) }
        ptb := { s.ptb with
          presenceTimer := s.ptb.presenceTimer.map (· - 1)
          peers := s.ptb.peers.map fun p => { p with expiry := p.expiry.map (· - 1) } }
        lkc := { s.lkc with
          listenTimer := s.lkc.listenTimer.map (· - 1)
          linkDropTimer := s.lkc.linkDropTimer.map (· - 1) } }) ∧
    (s.resetLow = true ∨ s.stc.station = .fault → step s = .next s)

/-- RESET_PIN_EVENT puts every block into its after-reset values in every state, FAULT included, with RESET low. While
RESET is low the station does nothing and its three pins are inactive. At RESET_RISING_EDGE it enters LOADING with those
values and begins to read the header. A station in FAULT leaves it by no other command than RESET_PIN_EVENT. Where its
timers fit that state and no attempt is in flight, which every step keeps, no other command changes a value of any block,
but that a scan under way is completed, and that the bits driven last may be forgotten. While RESET is high the TROUBLE pin
is active exactly while a condition stands in the trouble set, the RUN pin in RUN and the FAULT pin in FAULT. That the own
address and the hold time are 0 before any record is read, and that the button plan is then the empty list, are the model's
choices (log entries 3 and 26, DESIGN CHOICE), and that an edge while RESET is already high changes nothing, that a scan
under way goes on in FAULT, and when the bits driven are forgotten, are its readings (log entries 6, 21 and 19,
DEDUCED). -/
def Obligations.ResetPinAndRisingEdgeStartTheStation : Prop :=
  (∀ (s : State), s.resetLow = false →
    (s.troublePin = true ↔ s.stc.trouble.sensorLost = true ∨ s.stc.trouble.bellowsLost = true ∨
      s.stc.trouble.engineAbsent = true ∨ s.stc.trouble.linkDrop = true) ∧
    (s.runPin = true ↔ s.stc.station = .run) ∧ (s.faultPin = true ↔ s.stc.station = .fault)) ∧
  (∀ (s : State), exec .resetPinEvent s = .next { State.reset with pending := s.pending } ∧
    State.reset.resetLow = true) ∧
  (∀ (s : State) (c : Instr), s.resetLow = true →
    (c ≠ .resetPinEvent → c ≠ .resetRisingEdge → exec c s = .next s) ∧
      s.troublePin = false ∧ s.faultPin = false ∧ s.runPin = false) ∧
  (∀ (s : State),
    (s.resetLow = true → exec .resetRisingEdge s = .next { State.reset with
      resetLow := false
      pending := s.pending
      stl := { StartLoader.reset with port := .header } }) ∧
    (s.resetLow = false → exec .resetRisingEdge s = .next s)) ∧
  ∀ (s : State) (c : Instr), s.resetLow = false → s.stc.station = .fault → c ≠ .resetPinEvent →
    ∃ t, exec c s = .next t ∧ t.stc.station = .fault ∧ t.stc.faultReason = s.stc.faultReason ∧ t.resetLow = false ∧
      (s.TimersFitStation → s.lkc.tx = none →
        t = { s with msc := t.msc, lkc := { s.lkc with driven := t.lkc.driven } } ∧
        (t.lkc.driven = s.lkc.driven ∨ t.lkc.driven = []) ∧
        ((∀ closed, c ≠ .scanTimerExpiry (.finish closed)) → t.msc = s.msc))

/-- The after-reset values of the manual's tables: those of Station Control, the Start Loader, the Map Store, the Matrix
Scanner, the Bellows Unit, the Group Follower, the Placement Unit, the Note Roster, the Level Unit, the Offer Unit, the
Peer Table and the Link Controller. The own address and the hold time are 0, the slot-use mask is empty, the model's own
fields, those of what is under way, start with nothing under way (log entry 3), and the button plan is the empty list (log
entry 26), all the model's choice (DESIGN CHOICE). -/
def Obligations.AfterResetValuesAreTheTables : Prop :=
  State.reset.stc = ⟨.loading, .noReason, none, none, ⟨0, 0, 0, 0, 0, 0, 0⟩, ⟨false, false, false, false⟩⟩ ∧
    State.reset.stl = ⟨.idle, 0, 0#8⟩ ∧
    State.reset.mst.map = [] ∧
    (∀ t < 16, State.reset.mst.template t = [⟨0, none⟩]) ∧
    (∀ r < 16, State.reset.mst.registration r =
      ⟨⟨0, 0, 1, 0⟩, ⟨0, 0, 1, 0⟩, ⟨0, 0, 1, 0⟩, 0, .all 64, .all 0⟩) ∧
    State.reset.msc = ⟨1, 1, 1, 1, [], List.replicate 192 ⟨false, 0⟩, 0, none, false⟩ ∧
    State.reset.blw = ⟨⟨false, 0, 0, 0, 0, 1, List.replicate 17 0, 1⟩, .off, 0, .push, 0, 0, false, 0, false, none, 0, [],
      none⟩ ∧
    State.reset.grf = ⟨1, .follow, none, .lost, .push, 0, none, none, 0, .own⟩ ∧
    State.reset.plu = ⟨[], none, 0, none, [], [], none⟩ ∧
    State.reset.nrs = ⟨[], 0, none, false⟩ ∧
    State.reset.lvu = ⟨.all 0, .all 0, .all 0, .all false, .all false, 1⟩ ∧
    State.reset.ofu = ⟨.all none, none, .all 0, .all none, .all 0, .unheard, none⟩ ∧
    State.reset.ptb = ⟨none, List.replicate 12 ⟨false, none, none⟩⟩ ∧
    State.reset.lkc = ⟨none, false, none, [], [], ⟨none, none, .all none, none, none⟩, none, [], none⟩

/-- The state after reset meets every law that the steps are stated to keep. -/
def Obligations.ResetMeetsTheLaws : Prop :=
  State.reset.CountersInRange ∧ State.reset.HeldListLawful ∧ State.reset.WithinLimits ∧ State.reset.LimitsCurrent ∧
    State.reset.SectionLevelsCurrent ∧ State.reset.LevelsInRange ∧ State.reset.PeersLawful ∧ State.reset.LinkLawful ∧
    State.reset.SuspensionLawful ∧ State.reset.TimersFitStation ∧ State.reset.TroubleTrue ∧ State.reset.NotesLawful

/-! ## Start-up -/

/-- START_RECORD_HEADER_READ: four bytes FFH put the station into FAULT with reason BLANK; any others are kept and the
rest of the record is read. Outside LOADING, or where no header is being read, nothing happens. -/
def Obligations.HeaderReadTellsBlankFromWritten : Prop :=
  ∀ (s : State) (b0 b1 b2 b3 : Byte), s.resetLow = false →
    (s.stc.station = .loading → s.stl.port = .header →
      (b0 = 0xFF ∧ b1 = 0xFF ∧ b2 = 0xFF ∧ b3 = 0xFF →
        ∃ t, exec (.startRecordHeaderRead b0 b1 b2 b3) s = .next t ∧ t.stc.station = .fault ∧
          t.stc.faultReason = .blank ∧ t.faultPin = true ∧ t.mst = s.mst) ∧
      (¬(b0 = 0xFF ∧ b1 = 0xFF ∧ b2 = 0xFF ∧ b3 = 0xFF) →
        exec (.startRecordHeaderRead b0 b1 b2 b3) s =
          .next { s with stl := { s.stl with port := .record b0 b1 b2 b3 } })) ∧
    (s.stc.station ≠ .loading ∨ s.stl.port ≠ .header → exec (.startRecordHeaderRead b0 b1 b2 b3) s = .next s)

/-- START_RECORD_READ of a record that fails a structural check: FAULT with reason BAD RECORD, and no value of the
record reaches a block. -/
def Obligations.BadRecordEntersFault : Prop :=
  ∀ (s : State) (b0 b1 b2 b3 : Byte) (rest : List Byte), s.resetLow = false → s.stc.station = .loading →
    s.stl.port = .record b0 b1 b2 b3 →
    (let img := b0 :: b1 :: b2 :: b3 :: rest
     let len := 256 * b0.toNat + b1.toNat
     let n := 256 * (imageByte img 4).toNat + (imageByte img 5).toNat
     32768 < len ∨ len < 817 + 4 * n ∨
       imageWord img (len - 2) ≠ crc16 (bytesToBits (imagePrefix (len - 2) img)) ∨
       b2.toNat < 1 ∨ 12 < b2.toNat ∨ b3.toNat < 1 ∨ 4 < b3.toNat ∨ 4096 < n) →
    ∃ t, exec (.startRecordRead rest) s = .next t ∧ t.stc.station = .fault ∧ t.stc.faultReason = .badRecord ∧
      t.stc.counters = s.stc.counters ∧ t.stl.ownAddress = s.stl.ownAddress ∧ t.stl.slotUse = s.stl.slotUse ∧
      t.mst = s.mst ∧ t.msc = { s.msc with scanTimer := none } ∧ t.blw.settings = s.blw.settings ∧ t.grf = s.grf ∧
      t.plu = s.plu ∧ t.nrs = s.nrs ∧ t.lvu = s.lvu ∧ t.ofu.table = s.ofu.table

/-- START_RECORD_READ of a good record: its values are written into the blocks, and the slot table, the limits and the
section levels are computed from them. Each field is read from the offset and the bits of section 12.1's tables: the map
entries, the chord templates, the registrations, the button plan, the default offer, the station flags, the rate code and
the Bellows Unit's settings, with the clamps of their rules. -/
def Obligations.GoodRecordIsWrittenIntoTheBlocks : Prop :=
  (∀ (s : State) (b0 b1 b2 b3 : Byte) (rest : List Byte), s.resetLow = false → s.stc.station = .loading →
    s.stl.port = .record b0 b1 b2 b3 → goodRecord (b0 :: b1 :: b2 :: b3 :: rest) = true →
    ∃ t, exec (.startRecordRead rest) s = .next t ∧ t.stc.station = .joining ∧ t.stc.counters = s.stc.counters ∧
      (let img := b0 :: b1 :: b2 :: b3 :: rest
       t.mst = ⟨mapOf img, templatesOf img, registrationsOf img⟩ ∧
       t.stl = ⟨.idle, b2.toNat, (MapStore.mk (mapOf img) (templatesOf img) (registrationsOf img)).slotUse⟩ ∧
       t.grf.ownGroup = b3.toNat ∧ t.grf.registrationMode = modeOf img ∧
       t.blw.settings = bellowsSettingsOf img ∧
       t.msc = { s.msc with
         driveCount := clampNat 1 16 (imageByte img 8).toNat
         senseCount := clampNat 1 12 (imageByte img 9).toNat
         scanCode := clampNat 1 8 (imageByte img 10).toNat
         debounceCount := clampNat 1 8 (imageByte img 11).toNat
         plan := planOf img } ∧
       t.plu = { s.plu with holdTime := 10 * clampNat 0 200 (imageByte img 19).toNat } ∧
       t.lvu.threshold = clampNat 1 8 (imageByte img 20).toNat ∧
       t.ofu.table = tableOf (defaultOffer img) ∧ t.ofu.engine = .unheard ∧ t.ofu.livenessTimer = some (ms 2000) ∧
       t.LimitsCurrent ∧ t.SectionLevelsCurrent)) ∧
  ∀ (img : List Byte),
    let byte := fun i : Nat => (imageByte img i).toNat
    let word := fun i : Nat => 256 * byte i + byte (i + 1)
    let signed := fun i : Nat => if byte i < 128 then (byte i : Int) else byte i - 256
    let n := word 4
    ((mapOf img).length = n ∧ ∀ a < n,
      let b := fun i : Nat => byte (38 + 4 * a + i)
      let offset := 16 * (b 2 % 4) + b 3 / 16
      let fields : NoteFields := {
        slot := Fin.ofNat 8 (b 0 / 8)
        pitch := 16 * (b 0 % 8) + b 1 / 16
        articulation := if b 2 / 64 = 1 then .staccato else if b 2 / 64 = 2 then .swell else .sustain
        lengthCode := max 1 (b 2 / 4 % 16)
        levelOffset := if offset < 32 then offset else offset - 64 }
      (mapOf img)[a]? = some (
        if b 0 / 64 = 0 then .empty
        else if b 0 / 64 = 1 then .note fields
        else if b 0 / 64 = 2 then .chord fields (b 1 % 16)
        else .aliasTo (256 * (b 2 % 16) + b 3))) ∧
    ((templatesOf img).length = 16 ∧ ∀ i < 16,
      let off := 38 + 4 * n + 9 * i
      (templatesOf img)[i]? = some ((List.range (max 1 (min 4 (byte off)))).map fun j =>
        { interval := max (-24) (min 24 (signed (off + 1 + 2 * j)))
          fixedSlot := if byte (off + 2 + 2 * j) < 8 then some (Fin.ofNat 8 (byte (off + 2 + 2 * j))) else none })) ∧
    ((registrationsOf img).length = 16 ∧ ∀ i < 16,
      let off := 182 + 4 * n + 35 * i
      let pair := fun o : Nat => BankPair.mk (word o % 4096) (word (o + 2) % 4096) (2 ^ min 3 (byte (o + 4)))
        (imageByte img (o + 5))
      ∃ r, (registrationsOf img)[i]? = some r ∧ r.treble = pair off ∧ r.bass = pair (off + 6) ∧
        r.alt = pair (off + 12) ∧ r.transposition = max (-24) (min 24 (signed (off + 18))) ∧
        ∀ k : Slot, r.gain.get k = min 127 (byte (off + 19 + 2 * k.val)) ∧
          r.offset.get k = max (-64) (min 63 (signed (off + 20 + 2 * k.val)))) ∧
    ((planOf img).length = 8 ∧ ∀ i < 8,
      let off := 742 + 4 * n + 5 * i
      let code := byte (off + 2)
      (planOf img)[i]? = some {
        first := byte off
        count := byte (off + 1)
        kind := if code = 1 then .treble else if code = 2 then .bass else if code = 3 then .register
          else if code = 4 then .shift else .noKind
        ordinalBase := word (off + 3) % 4096 }) ∧
    (let off := 782 + 4 * n
     defaultOffer img = (List.range (min 8 (byte off))).map fun j =>
       { family := byte (off + 1 + 4 * j)
         low := byte (off + 2 + 4 * j) % 128
         high := byte (off + 3 + 4 * j) % 128
         polyphony := byte (off + 4 + 4 * j) }) ∧
    roleOf img = decide (byte 6 % 2 = 1) ∧ modeOf img = (if byte 6 / 2 % 2 = 1 then .shared else .own) ∧
    rateOf img = (if byte 7 = 1 then some .kbit250 else if byte 7 = 2 then some .kbit500
      else if byte 7 = 3 then some .kbit1000 else if byte 7 = 4 then some .kbit2000 else none) ∧
    bellowsSettingsOf img = {
      role := roleOf img
      storedZero := if word 12 < 32768 then word 12 else word 12 - 65536
      shift := min 7 (byte 14)
      deadBand := byte 15
      hysteresis := byte 16
      smoothing := max 1 (min 6 (byte 17))
      curve := (List.range 17).map fun i => (List.range (i + 1)).foldl (fun c j => max c (byte (21 + j) % 128)) 0
      samplePeriod := max 1 (min 8 (byte 18)) }

/-- The entry to JOINING after a good record: a rate in use is kept, else a fixed code settles at once, and the PRESENCE
entry, its timer and the join timer follow; else the station listens for 300 ms. A bellows-role station is LOCAL and
begins zeroing; any other is FOLLOW, BELLOWS LOST enters its trouble set and its sensor is not selected. That the PRESENCE
written at the entry carries BELLOWS LOST already is the model's reading (log entry 11, DEDUCED). -/
def Obligations.GoodRecordEntersJoining : Prop :=
  ∀ (s : State) (b0 b1 b2 b3 : Byte) (rest : List Byte), s.resetLow = false → s.stc.station = .loading →
    s.stl.port = .record b0 b1 b2 b3 → goodRecord (b0 :: b1 :: b2 :: b3 :: rest) = true →
    ∃ t, exec (.startRecordRead rest) s = .next t ∧ t.stc.station = .joining ∧
      (let img := b0 :: b1 :: b2 :: b3 :: rest
       (∀ r : LinkRate, s.lkc.linkRate = some r ∨ (s.lkc.linkRate = none ∧ rateOf img = some r) →
         t.lkc.linkRate = some r ∧ t.lkc.listening = false ∧ t.lkc.listenTimer = none ∧
           t.stc.joinTimer = some (ms 350) ∧ t.ptb.presenceTimer = some (ms 100) ∧
           t.lkc.updates.presence = some ⟨.presence t.grf.ownGroup t.blw.settings.role t.grf.registrationMode
             t.stl.slotUse t.grf.registration .joining t.stc.trouble, 0⟩) ∧
       (s.lkc.linkRate = none → rateOf img = none →
         t.lkc.linkRate = none ∧ t.lkc.listening = true ∧ t.lkc.listenTimer = some (ms 300) ∧
           t.stc.joinTimer = s.stc.joinTimer ∧ t.ptb = s.ptb) ∧
       (if roleOf img = true then
         t.grf.sourceMode = .localUnit ∧ t.stc.trouble = s.stc.trouble ∧ t.blw.phase = .zeroing ∧ t.blw.attempt = 1 ∧
           t.blw.samples = [] ∧ t.blw.outstanding = true ∧
           t.blw.sampleTimer = some (ms (clampNat 1 8 (imageByte img 18).toNat))
        else
         t.grf.sourceMode = .follow ∧ t.stc.trouble = { s.stc.trouble with bellowsLost := true } ∧
           t.sensorSelect = false ∧
           t.blw = { s.blw with settings := bellowsSettingsOf img }))

/-- The Start Loader clamps and repairs the fields of a record: whatever the image, the map entries, the templates, the
registrations, the ordinal bases of the plan, the default offer's pitches and the Bellows Unit's settings that it writes
lie in the ranges of their tables, and the curve is non-decreasing. -/
def Obligations.LoadedValuesLieInTheirRanges : Prop :=
  ∀ (img : List Byte),
    (∀ e ∈ mapOf img,
      (∀ f, e = .note f → f.pitch ≤ 127 ∧ 1 ≤ f.lengthCode ∧ f.lengthCode ≤ 15 ∧ -32 ≤ f.levelOffset ∧
        f.levelOffset ≤ 31) ∧
      (∀ f template, e = .chord f template → f.pitch ≤ 127 ∧ 1 ≤ f.lengthCode ∧ f.lengthCode ≤ 15 ∧
        -32 ≤ f.levelOffset ∧ f.levelOffset ≤ 31 ∧ template ≤ 15) ∧
      ∀ target, e = .aliasTo target → target ≤ 4095) ∧
    (∀ p ∈ planOf img, p.first ≤ 255 ∧ p.count ≤ 255 ∧ p.ordinalBase ≤ 4095) ∧
    ((defaultOffer img).length ≤ 8 ∧ ∀ o ∈ defaultOffer img, o.low ≤ 127 ∧ o.high ≤ 127 ∧ o.polyphony ≤ 255) ∧
    (∀ notes ∈ templatesOf img, 1 ≤ notes.length ∧ notes.length ≤ 4 ∧
      ∀ n ∈ notes, -24 ≤ n.interval ∧ n.interval ≤ 24) ∧
    (∀ r ∈ registrationsOf img, -24 ≤ r.transposition ∧ r.transposition ≤ 24 ∧
      (∀ k : Slot, r.gain.get k ≤ 127 ∧ -64 ≤ r.offset.get k ∧ r.offset.get k ≤ 63) ∧
      ∀ p ∈ [r.treble, r.bass, r.alt],
        p.pushBase ≤ 4095 ∧ p.pullBase ≤ 4095 ∧ (p.stride = 1 ∨ p.stride = 2 ∨ p.stride = 4 ∨ p.stride = 8)) ∧
    (let c := bellowsSettingsOf img
     c.storedZero ≤ 32767 ∧ -32768 ≤ c.storedZero ∧ c.shift ≤ 7 ∧ c.deadBand ≤ 255 ∧ c.hysteresis ≤ 255 ∧
       1 ≤ c.smoothing ∧ c.smoothing ≤ 6 ∧ 1 ≤ c.samplePeriod ∧
       c.samplePeriod ≤ 8 ∧ c.curve.length = 17 ∧ (∀ x ∈ c.curve, x ≤ 127) ∧ c.curve.Pairwise (· ≤ ·)) ∧
    (templatesOf img).length = 16 ∧ (registrationsOf img).length = 16 ∧ (planOf img).length = 8

/-- The slot-use mask of a map holds a slot exactly when a NOTE or CHORD entry names it or a fixed section of a CHORD
entry's template does, and no command but a reset event or the reading of a start record changes the station's mask. That
the mask stands through the start of a LOADING until a record is read is the model's reading (log entry 8, DEDUCED). -/
def Obligations.SlotUseMaskIsThatOfTheMap : Prop :=
  (∀ (m : MapStore) (k : Slot), SlotMask.has m.slotUse k = true ↔
    ∃ e ∈ m.map, (∃ f, e = .note f ∧ f.slot = k) ∨
      ∃ f t, e = .chord f t ∧ (f.slot = k ∨ ∃ n ∈ m.template t, n.fixedSlot = some k)) ∧
  ∀ (s t : State) (c : Instr), exec c s = .next t → c ≠ .resetPinEvent → c ≠ .resetRisingEdge →
    (∀ rest, c ≠ .startRecordRead rest) → t.stl.slotUse = s.stl.slotUse

/-- LISTEN_TIMER_EXPIRY while the station listens: the rate becomes 1000 kbit/s, listening ends, the PRESENCE entry is
written, and the join timer is loaded with 350 ms. An attempt of the PRESENCE entry in flight goes on with the older value,
and a removal held against it is cancelled. -/
def Obligations.ListenTimerExpirySettlesTheRate : Prop :=
  ∀ (s : State), s.resetLow = false → s.stc.station = .joining → s.lkc.listening = true →
    s.lkc.listenTimer.running = true →
    ∃ t, exec .listenTimerExpiry s = .next t ∧ t.lkc.linkRate = some .kbit1000 ∧
      t.lkc.updates.presence = some ⟨.presence s.grf.ownGroup s.blw.settings.role s.grf.registrationMode s.stl.slotUse
        s.grf.registration .joining s.stc.trouble, 0⟩ ∧
      t = { s with
        stc := { s.stc with joinTimer := some (ms 350) }
        ptb := { s.ptb with presenceTimer := some (ms 100) }
        lkc := { s.lkc with
          linkRate := t.lkc.linkRate
          listening := false
          listenTimer := none
          updates := { s.lkc.updates with presence := t.lkc.updates.presence }
          tx := s.lkc.tx.map fun a =>
            if a.source = .table .presence then { a with rewritten := true, withdraw := false } else a } }

/-- JOIN_TIMER_EXPIRY in JOINING: RUN, every contact RELEASED with counter 0, shift count 0, the scan timer with a full
period, a fresh PRESENCE entry, and, where zeroing has ended, the first BELLOWS entry with its heartbeat of 20 ms. An
attempt of an entry so written goes on with the older value, the newer one waiting for its own. That a scan of the RUN
before, still under way, ends here is the model's reading (log entry 21, DEDUCED). -/
def Obligations.JoinTimerExpiryEntersRun : Prop :=
  ∀ (s : State), s.resetLow = false → s.stc.station = .joining → s.stc.joinTimer.running = true →
    ∃ t, exec .joinTimerExpiry s = .next t ∧ t.runPin = true ∧
      t.lkc.updates.presence = some ⟨.presence s.grf.ownGroup s.blw.settings.role s.grf.registrationMode s.stl.slotUse
        s.grf.registration .run s.stc.trouble, 0⟩ ∧
      t.lkc.updates.bellows = (if s.blw.phase = .measuring then
        some ⟨.bellows s.grf.ownGroup s.blw.direction s.blw.level s.blw.sensorLost, 0⟩ else s.lkc.updates.bellows) ∧
      t = { s with
        stc := { s.stc with station := .run, joinTimer := none }
        msc := { s.msc with
          contacts := List.replicate 192 ⟨false, 0⟩
          shiftCount := 0
          scanTimer := some s.msc.scanCode
          scanning := false }
        blw := { s.blw with heartbeat := if s.blw.phase = .measuring then some (ms 20) else s.blw.heartbeat }
        ptb := { s.ptb with presenceTimer := some (ms 100) }
        lkc := { s.lkc with
          updates := { s.lkc.updates with
            bellows := t.lkc.updates.bellows
            presence := t.lkc.updates.presence }
          tx := s.lkc.tx.map fun a =>
            if a.source = .table .presence ∨ (a.source = .table .bellows ∧ s.blw.phase = .measuring) then
              { a with rewritten := true, withdraw := false }
            else a } }

/-- DRAIN_TIMER_EXPIRY in RELOADING: LOADING, with every list emptied, the Bellows Unit as after a reset, the counters and
the link rate kept, and an attempt in flight carried on. The end of an attempt in RELOADING that leaves the note queue and
the STATUS entry empty begins LOADING too, and one that leaves either of them does not: a table entry emptied or kept, a
START gone out or withdrawn, an owed END or an owed BOW queued, an END gone out or kept, and one for which a request owed
UNPLACED waited. That the scanner's values and the hold time are kept at the start of LOADING is the model's reading (log
entry 8, DEDUCED), and so is that a scan still under way then goes on (log entry 21, DEDUCED). -/
def Obligations.DrainEndsInLoading : Prop :=
  (∀ (s : State), s.resetLow = false → s.stc.station = .reloading → s.stc.drainTimer.running = true →
    exec .drainTimerExpiry s = .next { s with
      stc := ⟨.loading, .noReason, none, none, s.stc.counters, ⟨false, false, false, false⟩⟩
      stl := { s.stl with port := .header }
      mst := State.reset.mst
      msc := { s.msc with scanTimer := none }
      blw := State.reset.blw
      grf := State.reset.grf
      plu := { State.reset.plu with holdTime := s.plu.holdTime }
      nrs := State.reset.nrs
      lvu := State.reset.lvu
      ofu := State.reset.ofu
      ptb := State.reset.ptb
      lkc := { State.reset.lkc with
        linkRate := s.lkc.linkRate
        tx := s.lkc.tx.map fun a => { a with source := .carried, rewritten := false, withdraw := false }
        driven := if s.lkc.tx.isSome = true then s.lkc.driven else [] } }) ∧
  (∀ (s : State) (a : Attempt) (read : List Bool) (r : AttemptResult), s.resetLow = false → s.stc.station = .reloading →
    s.lkc.tx = some a → a.source ≠ .carried → attemptResult s.lkc.driven read = some r →
    ∃ t, exec (.attemptEnd read) s = .next t ∧ t.lkc.tx = none ∧ t.lkc.linkRate = s.lkc.linkRate ∧
      (t.stc.station = .reloading ∧ (t.lkc.noteQueue ≠ [] ∨ t.lkc.updates.status ≠ none) ∨
        t.stc.station = .loading ∧ t.stl.port = .header ∧ t.nrs = State.reset.nrs ∧
          t.lkc.updates = State.reset.lkc.updates ∧ t.lkc.noteQueue = [])) ∧
  ∀ (s : State) (a : Attempt) (read : List Bool) (r : AttemptResult), s.resetLow = false → s.stc.station = .reloading →
    s.lkc.tx = some a → attemptResult s.lkc.driven read = some r →
    let out := r = .success ∨ (r = .failure ∧ 15 ≤ a.failures)
    (∀ key, a.source = .table key →
      let kept := if out then a.rewritten = true else a.withdraw = false
      ∃ t, exec (.attemptEnd read) s = .next t ∧ t.stc.station =
        if s.lkc.noteQueue = [] ∧ (s.lkc.updates.status = none ∨ (key = .status ∧ ¬kept)) then .loading
        else .reloading) ∧
    ∀ q rest, s.lkc.noteQueue = q :: rest → a.source = .queueHead →
      let last := rest = [] ∧ s.lkc.updates.status = none
      (∀ tag, q.frame.tag? = some tag → q.frame.queuedAs ≠ .stop → ∀ e, s.nrs.roster.find? (·.tag == tag) = some e →
        (a.withdraw = true ↔ e.state = .ending) → (∀ p ∈ rest, p.frame.tag? ≠ some tag) →
        ∃ t, exec (.attemptEnd read) s = .next t ∧ t.stc.station =
          if last ∧ (out ∧ e.state ≠ .ending ∨ ¬out ∧ e.state = .ending ∧ q.frame.queuedAs = .start) then .loading
          else .reloading) ∧
      (∀ tag art, q.frame = .stop tag art → a.withdraw = false →
        (s.nrs.waiting = none →
          ∃ t, exec (.attemptEnd read) s = .next t ∧
            t.stc.station = (if last ∧ out then .loading else .reloading) ∧
            (¬last → r = .success → t = { s with
              nrs := { s.nrs with roster := s.nrs.roster.filter (·.tag ≠ tag) }
              lkc := { s.lkc with tx := none, noteQueue := rest } })) ∧
        (s.nrs.waiting.isSome = true → s.nrs.answerOwed = true → s.plu.owed = [] → s.plu.heldEvents = [] →
          ∃ t, exec (.attemptEnd read) s = .next t ∧
            t.stc.station = (if last ∧ out then .loading else .reloading) ∧
            t.stc.counters.unplacedNotes = min (s.stc.counters.unplacedNotes + 1) 65535)) ∧
      (∀ d mask, q.frame = .bow d mask → a.withdraw = false →
        ∃ t, exec (.attemptEnd read) s = .next t ∧
          t.stc.station = if last ∧ out ∧ s.plu.owedBow = none then .loading else .reloading)

/-- An entry to FAULT, here at an address conflict: the reason is set, every block stops and keeps its values, and the
attempt in flight is abandoned. A conflict met while listening settles the rate first. That the outstanding request and
the held events stay, unread, is the model's reading (log entry 13, DEDUCED), and so is that the Bellows Unit keeps its
missed-sample count and its capture (log entry 17, DESIGN CHOICE). A scan under way is not ended. -/
def Obligations.AddressConflictEntersFault : Prop :=
  (∀ (s : State) (rate : LinkRate) (cls kind : Nat) (payload : List Byte), s.resetLow = false → s.working = true →
    s.lkc.listening = false → s.lkc.linkRate = some rate → cls < 4 → 1 ≤ s.stl.ownAddress → s.stl.ownAddress ≤ 12 →
    kind < 16 → payload.length < 16 → lengthOk kind payload.length = true →
    (∀ d, readFrame s.lkc.driven = some d → d.frame ≠ ⟨cls, s.stl.ownAddress, kind, payload⟩) →
    ∃ t, exec (.frameReceived rate (frameBits cls s.stl.ownAddress kind payload) true) s = .next t ∧
      t.faultPin = true ∧ t.runPin = false ∧ t.troublePin = s.troublePin ∧
      t = { s with
        stc := { s.stc with
          station := .fault
          faultReason := .addressConflict
          joinTimer := none
          drainTimer := none }
        stl := { s.stl with port := .idle }
        msc := { s.msc with scanTimer := none }
        blw := { s.blw with phase := .off, outstanding := false, sampleTimer := none, heartbeat := none }
        ofu := { s.ofu with livenessTimer := none }
        ptb := { s.ptb with presenceTimer := none }
        lkc := { s.lkc with tx := none, driven := [], linkDropTimer := none } }) ∧
  ∀ (s : State) (rate : LinkRate) (cls kind : Nat) (payload : List Byte), s.resetLow = false →
    s.stc.station = .joining → s.lkc.listening = true → cls < 4 → 1 ≤ s.stl.ownAddress → s.stl.ownAddress ≤ 12 →
    kind < 16 → payload.length < 16 → lengthOk kind payload.length = true →
    (∀ d, readFrame s.lkc.driven = some d → d.frame ≠ ⟨cls, s.stl.ownAddress, kind, payload⟩) →
    exec (.frameReceived rate (frameBits cls s.stl.ownAddress kind payload) true) s = .next { s with
      stc := { s.stc with
        station := .fault
        faultReason := .addressConflict
        joinTimer := none
        drainTimer := none }
      stl := { s.stl with port := .idle }
      msc := { s.msc with scanTimer := none }
      blw := { s.blw with phase := .off, outstanding := false, sampleTimer := none, heartbeat := none }
      ofu := { s.ofu with livenessTimer := none }
      ptb := { s.ptb with presenceTimer := none }
      lkc := { s.lkc with
        linkRate := some rate
        listening := false
        listenTimer := none
        updates := { s.lkc.updates with
          presence := some ⟨.presence s.grf.ownGroup s.blw.settings.role s.grf.registrationMode s.stl.slotUse
            s.grf.registration .joining s.stc.trouble, 0⟩ }
        tx := none
        driven := []
        linkDropTimer := none } }

/-- A timer's expiry does nothing where the timer does not run, and a scan that is not under way is not finished: the event
cannot occur. A staccato deadline does not expire where no entry carries the tag, nor on an entry that is ENDING or has no
deadline, whatever the other entries hold. The model's reading (log entries 2 and 21): an expiry command is the sender's word that the timer has run
out. -/
def Obligations.StoppedTimersDoNotExpire : Prop :=
  ∀ (s : State),
    (s.lkc.listenTimer = none → exec .listenTimerExpiry s = .next s) ∧
    (s.stc.joinTimer = none → exec .joinTimerExpiry s = .next s) ∧
    (s.stc.drainTimer = none → exec .drainTimerExpiry s = .next s) ∧
    (s.msc.scanTimer = none → exec (.scanTimerExpiry .start) s = .next s ∧
      ∀ closed, exec (.scanTimerExpiry (.whole closed)) s = .next s) ∧
    (s.msc.scanning = false → ∀ closed, exec (.scanTimerExpiry (.finish closed)) s = .next s) ∧
    (s.blw.sampleTimer = none → exec .sampleTimerExpiry s = .next s) ∧
    (s.blw.heartbeat = none → exec .heartbeatTimerExpiry s = .next s) ∧
    (s.grf.staleTimer = none → exec .staleTimerExpiry s = .next s) ∧
    (s.grf.lostTimer = none → exec .lostTimerExpiry s = .next s) ∧
    (s.plu.breathTimer = none → exec .breathTimerExpiry s = .next s) ∧
    (s.ptb.presenceTimer = none → exec .presenceTimerExpiry s = .next s) ∧
    (∀ a, (s.ptb.peer a).expiry = none → exec (.peerExpiry a) s = .next s) ∧
    (s.ofu.livenessTimer = none → exec .engineLivenessTimerExpiry s = .next s) ∧
    (s.lkc.linkDropTimer = none → exec .linkDropTimerExpiry s = .next s) ∧
    (∀ tag, (∀ e ∈ s.nrs.roster, e.tag = tag → e.deadline = none ∨ e.state = .ending) →
      exec (.staccatoDeadlineExpiry tag) s = .next s)

/-! ## Lookups, folding, offers and shares -/

/-- A layer is active when its bit of the mask is set and it lies below the stride; a lookup forms one address for each
active layer, in ascending order, from the push base or the pull base of the direction; and a pair with no active layer
gives an empty result with no miss. -/
def Obligations.LookupUsesActiveLayersAndBase : Prop :=
  (∀ (p : BankPair) (j : Nat), j ∈ p.activeLayers ↔ j < 8 ∧ j < p.stride ∧ p.layerMask.getLsbD j = true) ∧
  (∀ (p : BankPair), p.activeLayers.Pairwise (· < ·)) ∧
  (∀ (p : BankPair) (n : Nat),
    p.addresses n .push = p.activeLayers.map (fun j => p.pushBase + n * p.stride + j) ∧
    p.addresses n .pull = p.activeLayers.map (fun j => p.pullBase + n * p.stride + j)) ∧
  ∀ (m : MapStore) (n r : Nat) (name : PairName) (d : Direction),
    ((m.registration r).pair name).activeLayers = [] →
      (m.lookup n name d r).items = [] ∧ (m.lookup n name d r).misses = 0

/-- A layer address above the map, an ALIAS to an address above the map and an ALIAS to an ALIAS are map misses; an EMPTY
entry contributes nothing; a NOTE gives its own item and a CHORD one item per note of its template, a note of section
SAME going to the entry's slot. The misses of a lookup are its missed addresses, and its items those of the others. -/
def Obligations.LookupCountsMissesAndCollectsItems : Prop :=
  (∀ (m : MapStore) (a : Nat), m.map.length ≤ a → m.reach a = none) ∧
  (∀ (m : MapStore) (a t : Nat), m.map[a]? = some (.aliasTo t) →
    (m.map.length ≤ t → m.reach a = none) ∧ (∀ u, m.map[t]? = some (.aliasTo u) → m.reach a = none) ∧
    (∀ e, m.map[t]? = some e → (∀ u, e ≠ .aliasTo u) → m.reach a = m.reach t)) ∧
  (∀ (m : MapStore) (a : Nat), m.map[a]? = some .empty → m.reach a = some []) ∧
  (∀ (m : MapStore) (a : Nat) (f : NoteFields), m.map[a]? = some (.note f) →
    m.reach a = some [⟨f.pitch, 0, f.slot, f.articulation, 20 * f.lengthCode, f.levelOffset⟩]) ∧
  (∀ (m : MapStore) (a t : Nat) (f : NoteFields), m.map[a]? = some (.chord f t) →
    m.reach a = some ((m.template t).map fun n =>
      ⟨f.pitch, n.interval, n.fixedSlot.getD f.slot, f.articulation, 20 * f.lengthCode, f.levelOffset⟩)) ∧
  ∀ (m : MapStore) (n r : Nat) (name : PairName) (d : Direction),
    let addresses := ((m.registration r).pair name).addresses n d
    (m.lookup n name d r).misses = addresses.countP (fun a => (m.reach a).isNone) ∧
      (m.lookup n name d r).items = addresses.flatMap (fun a => (m.reach a).getD []) ∧
      (m.lookup n name d r).transposition = (m.registration r).transposition

/-- The fold of a raw pitch lands in the range and keeps a pitch that already lies there. It moves any other by whole
octaves, a pitch above the range no lower than 11 below its top and a pitch below it no higher than 11 above its bottom,
unless the range is narrower than an octave and no whole number of octaves leads into it: then the fold ends on the upper
bound. -/
def Obligations.FoldLandsInTheRange : Prop :=
  ∀ (q : Int) (lo hi : Nat), lo ≤ hi →
    (lo : Int) ≤ fold q lo hi ∧ fold q lo hi ≤ hi ∧ (lo ≤ q → q ≤ hi → fold q lo hi = q) ∧
      (q > hi → (hi : Int) - 11 ≤ fold q lo hi) ∧ (q < lo → fold q lo hi ≤ lo + 11) ∧
      ((∃ n : Int, fold q lo hi = q + 12 * n) ∨
        (hi < lo + 11 ∧ fold q lo hi = hi ∧ ∀ n : Int, ¬(lo ≤ q + 12 * n ∧ q + 12 * n ≤ hi)))

/-- Offers are classified by family and low pitch, and a discarded offer takes no part; the polyphony is rounded down to
a quantised value; a slot keeps the offer of greatest Q, of equals the earliest; and it is detected when that Q is 1 or
more, with the range of the kept offer. -/
def Obligations.OffersAreClassifiedQuantisedAndKept : Prop :=
  (∀ (o : Offer) (k : Slot), o.slot? = some k ↔ o.low ≤ o.high ∧
    ((o.family = 0 ∧ k = (if o.low ≤ 43 then 0 else 1)) ∨ (o.family = 1 ∧ k = (if o.low ≤ 45 then 2 else 3)) ∨
      (o.family = 2 ∧ k = (if o.low ≤ 50 then 4 else 5)) ∨ (o.family = 3 ∧ k = 6) ∨ (o.family = 4 ∧ k = 7))) ∧
  (∀ offers : List Offer, tableOf offers = tableOf (offers.filter fun o => o.slot?.isSome)) ∧
  (∀ p : Nat, quantise p ∈ [0, 1, 2, 3, 4, 6, 8, 12, 16, 24, 32, 48, 64] ∧ quantise p ≤ p ∧
    ∀ v ∈ [0, 1, 2, 3, 4, 6, 8, 12, 16, 24, 32, 48, 64], v ≤ p → v ≤ quantise p) ∧
  (∀ (offers : List Offer) (k : Slot) (d : Detected), (tableOf offers).get k = some d ↔
    ∃ before o after, offers = before ++ o :: after ∧ o.slot? = some k ∧ 1 ≤ quantise o.polyphony ∧
      d = ⟨o.low, o.high, quantise o.polyphony⟩ ∧
      (∀ b ∈ before, b.slot? = some k → quantise b.polyphony < quantise o.polyphony) ∧
      ∀ a ∈ after, a.slot? = some k → quantise a.polyphony ≤ quantise o.polyphony) ∧
  ∀ (family low high polyphony : Byte), (offerOf family low high polyphony).low ≤ 127 ∧
    (offerOf family low high polyphony).high ≤ 127

/-- n_s is 1 plus the live peers that declare the slot and lies within 1..12; the share is 0 for Q 0 and otherwise the
greater of 1 and floor(Q / n_s). -/
def Obligations.ShareDividesThePolyphony : Prop :=
  (∀ (s : State) (k : Slot), s.PeersLawful → 1 ≤ s.stl.ownAddress → s.stl.ownAddress ≤ 12 →
    s.ptb.declaring k = 1 + (addresses.filter fun a =>
      (s.ptb.peer a).live && ((s.ptb.peer a).declared.any fun d => SlotMask.has d.mask k)).length ∧
    1 ≤ s.ptb.declaring k ∧ s.ptb.declaring k ≤ 12) ∧
  (∀ n : Nat, shareOf none n = 0) ∧
  (∀ (d : Detected) (n : Nat), 1 ≤ n →
    (d.polyphony = 0 → shareOf (some d) n = 0) ∧
    (d.polyphony ≠ 0 → shareOf (some d) n = max 1 (d.polyphony / n) ∧ 1 ≤ shareOf (some d) n) ∧
    (d.polyphony ≤ 64 → shareOf (some d) n ≤ 64))

/-- The smoothed magnitude moves toward the sample's magnitude and never past it, by at least 1 where they differ, and
stays within 0..2047 − D. The level read from a non-decreasing curve does not decrease as e grows, lies within 0..127,
and is c0 at 0 and c16 at Emax. -/
def Obligations.MagnitudeAndLevelFollowThePressure : Prop :=
  (∀ (c : BellowsSettings) (e p : Int), c.deadBand ≤ 255 → 1 ≤ c.smoothing → -2047 ≤ p → p ≤ 2047 → 0 ≤ e →
    e ≤ 2047 - c.deadBand →
    (let m := magnitudeOf c p
     let e' := magnitudeAfter c e m
     0 ≤ m ∧ m ≤ 2047 - c.deadBand ∧ (e < m → e + 1 ≤ e' ∧ e' ≤ m) ∧ (m < e → m ≤ e' ∧ e' ≤ e - 1) ∧
       (e = m → e' = e) ∧ 0 ≤ e' ∧ e' ≤ 2047 - c.deadBand)) ∧
  ∀ (c : BellowsSettings), c.deadBand ≤ 255 → c.curve.length = 17 → (∀ x ∈ c.curve, x ≤ 127) →
    c.curve.Pairwise (· ≤ ·) →
    levelOf c 0 = c.curve.getD 0 0 ∧ levelOf c (2047 - c.deadBand) = c.curve.getD 16 0 ∧
      (∀ e : Int, 0 ≤ e → e ≤ 2047 - c.deadBand → levelOf c e ≤ 127) ∧
      ∀ e1 e2 : Int, 0 ≤ e1 → e1 ≤ e2 → e2 ≤ 2047 - c.deadBand → levelOf c e1 ≤ levelOf c e2

/-! ## Contacts and held records -/

/-- SCAN_TIMER_EXPIRY with a whole scan, in RUN: every scanned contact is debounced against its reading, an unscanned one
is left as it is, the timer is loaded with the next full period, and the scan changes nothing but the contacts, the shift
count, the current registration and what notes pass through. A scan that something comes between is started, its timer
loaded, and later finished, in RUN or, where the station has left RUN, in the state it is in then, with the same debouncing
and the same deliveries, of which the Placement Unit takes none outside RUN and RELOADING, and no block any in LOADING and
FAULT; no further scan starts before that. The drive lines above the drive count, and all of them while
RESET is low, are inactive. That a scan cut short comes in two parts, and that a configured line may be active only while
a scan is under way, are the model's readings (log entries 21 and 22, DEDUCED). -/
def Obligations.ScanDebouncesEveryContact : Prop :=
  (∀ (s : State) (closed : List Nat), s.resetLow = false →
    let debounced := fun t : State =>
      t.msc.contacts.length = s.msc.contacts.length ∧
      (∀ i : Nat, i < s.msc.contacts.length →
        let old := s.msc.contacts.getD i ⟨false, 0⟩
        let new := t.msc.contacts.getD i ⟨false, 0⟩
        if i / 12 < s.msc.driveCount ∧ i % 12 < s.msc.senseCount then
          (if (i ∈ closed ↔ old.pressed = true) then new = ⟨old.pressed, 0⟩
           else if old.counter + 1 = s.msc.debounceCount then new = ⟨!old.pressed, 0⟩
           else new = ⟨old.pressed, old.counter + 1⟩)
        else new = old) ∧
      State.NotesOnly { s with
        msc := { s.msc with
          contacts := t.msc.contacts
          shiftCount := t.msc.shiftCount
          scanTimer := t.msc.scanTimer
          scanning := false }
        grf := { s.grf with registration := t.grf.registration } } t
    (s.stc.station = .run → s.msc.scanTimer.running = true → s.msc.scanning = false →
      (∃ t, exec (.scanTimerExpiry (.whole closed)) s = .next t ∧ t = s.scan closed ∧
        t.msc.scanTimer = some s.msc.scanCode ∧ debounced t) ∧
      exec (.scanTimerExpiry .start) s =
        .next { s with msc := { s.msc with scanTimer := some s.msc.scanCode, scanning := true } }) ∧
    (s.msc.scanning = true →
      ∃ t, exec (.scanTimerExpiry (.finish closed)) s = .next t ∧ t = s.finishScan closed ∧
        t.msc.scanTimer = s.msc.scanTimer ∧ debounced t ∧
        (s.playing = false → t.plu = s.plu ∧ t.nrs = s.nrs) ∧ (s.working = false → t = { s with msc := t.msc })) ∧
    (s.msc.scanning = true → exec (.scanTimerExpiry (.whole closed)) s = .next s ∧
      exec (.scanTimerExpiry .start) s = .next s)) ∧
  ∀ (s : State) (line : Nat),
    s.drives line = true ↔ s.resetLow = false ∧ s.msc.scanning = true ∧ line < s.msc.driveCount

/-- An accepted transition is delivered by the kind of its button, that of the first range of the plan that covers its
index: TREBLE and BASS to the Placement Unit, a REGISTER press to the Group Follower where its ordinal is a registration
number, SHIFT to the shift count, and NONE to nothing; within a scan the releases go first and then the presses, each in
ascending order of index. A register selection, not taken in LOADING and FAULT, makes its number the current registration,
has the section levels recomputed and, in mode SHARED and in RUN, writes the REGISTRATION entry. -/
def Obligations.TransitionsAreDeliveredByKind : Prop :=
  (∀ (m : MatrixScanner) (i : Nat),
    let covers := fun r : PlanRange =>
      r.first ≤ i ∧ i < r.first + r.count ∧ i < 192 ∧ r.ordinalBase + (i - r.first) ≤ 4095
    (∀ before r after, m.plan = before ++ r :: after → covers r → (∀ b ∈ before, ¬covers b) →
      m.button i = (r.kind, r.ordinalBase + (i - r.first))) ∧
    ((∀ r ∈ m.plan, ¬covers r) → m.button i = (.noKind, 0))) ∧
  (∀ (s : State) (i : Nat),
    let kind := (s.msc.button i).1
    let ordinal := (s.msc.button i).2
    (kind = .treble ∨ kind = .bass →
      s.deliverRelease i = s.placementEvent (.release i) ∧
        s.deliverPress i = s.placementEvent (.press i ordinal kind (0 < s.msc.shiftCount))) ∧
    (kind = .register → s.deliverRelease i = s ∧
      s.deliverPress i = (if ordinal ≤ 15 then s.selectRegistration ordinal else s)) ∧
    (kind = .shift →
      s.deliverPress i = { s with msc := { s.msc with shiftCount := s.msc.shiftCount + 1 } } ∧
        s.deliverRelease i = { s with msc := { s.msc with shiftCount := s.msc.shiftCount - 1 } }) ∧
    (kind = .noKind → s.deliverPress i = s ∧ s.deliverRelease i = s)) ∧
  (∀ (s : State) (n : Nat),
    let u := ({ s with grf := { s.grf with registration := n } } : State).recomputeLevels
    let reg := s.mst.registration n
    (∀ k : Slot, u.lvu.sectionLevel.get k =
      (max 0 (min 127 ((((s.grf.level * reg.gain.get k + 32) / 64 : Nat) : Int) + reg.offset.get k))).toNat) ∧
    (s.working = false → s.selectRegistration n = s) ∧
    (s.working = true → s.selectRegistration n =
      if s.grf.registrationMode = .shared ∧ s.stc.station = .run then { u with lkc := { u.lkc with
        updates := { u.lkc.updates with registration := some ⟨.registration s.grf.ownGroup n, 0⟩ }
        tx := u.lkc.tx.map fun a =>
          if a.source = .table .registration then { a with rewritten := true, withdraw := false } else a } }
      else u)) ∧
  ∀ (s : State) (closed : List Nat),
    let contacts := (s.finishScan closed).msc.contacts
    s.scan closed = ({ s with msc := { s.msc with
      scanTimer := some s.msc.scanCode
      scanning := true } } : State).finishScan closed ∧
    ∃ releases presses : List Nat, releases.Pairwise (· < ·) ∧ presses.Pairwise (· < ·) ∧
      (∀ i : Nat, i ∈ releases ↔ i < s.msc.contacts.length ∧
        (s.msc.contacts.getD i ⟨false, 0⟩).pressed = true ∧ (contacts.getD i ⟨false, 0⟩).pressed = false) ∧
      (∀ i : Nat, i ∈ presses ↔ i < s.msc.contacts.length ∧
        (s.msc.contacts.getD i ⟨false, 0⟩).pressed = false ∧ (contacts.getD i ⟨false, 0⟩).pressed = true) ∧
      s.finishScan closed = presses.foldl State.deliverPress (releases.foldl State.deliverRelease
        { s with msc := { s.msc with contacts := contacts, scanning := false } })

/-- A press and a release taken by the Placement Unit: an ARMED record at L = 0, a PLACED one above it, a SPENT one in
RELOADING, HELD OVERFLOWS where 24 records stand, nothing for a contact already held; a release has each tag of its record
give up one holder with NORMAL, in the order of the tag list, and removes the record; and while a request is outstanding both are held. A placement looks the record up with the direction and registration of the
moment, counts the misses in MAP MISSES, and sends a request for each item in order, whose raw pitch is the item's pitch
with interval and transposition; a tag answered joins the record's tags, an unplaced answer is counted, and a request that
waits suspends the placement with the requests behind it. -/
def Obligations.PressesAndReleasesKeepTheHeldList : Prop :=
  (∀ (s : State) (c n : Nat) (kind : ButtonKind) (shiftHeld : Bool), s.playing = true →
    let pair := if shiftHeld = true then PairName.alt else if kind = .bass then .bass else .treble
    let t := s.placementEvent (.press c n kind shiftHeld)
    let u := s.placementEvent (.release c)
    (s.plu.suspended.isSome = true →
      t = { s with plu := { s.plu with heldEvents := s.plu.heldEvents ++ [.press c n kind shiftHeld] } } ∧
        u = { s with plu := { s.plu with heldEvents := s.plu.heldEvents ++ [.release c] } }) ∧
    (s.plu.suspended = none →
      (c ∈ s.plu.held.map (·.contact) → t = s) ∧
      (c ∉ s.plu.held.map (·.contact) → 24 ≤ s.plu.held.length →
        t = { s with stc := { s.stc with counters := { s.stc.counters with
          heldOverflows := min (s.stc.counters.heldOverflows + 1) 65535 } } }) ∧
      (c ∉ s.plu.held.map (·.contact) → s.plu.held.length < 24 → s.stc.station = .run → s.grf.level = 0 →
        t = { s with plu := { s.plu with held := s.plu.held ++ [⟨c, n, pair, s.grf.direction, .armed, []⟩] } }) ∧
      (c ∉ s.plu.held.map (·.contact) → s.plu.held.length < 24 → s.stc.station = .run → s.grf.level ≠ 0 →
        State.NotesOnly s t ∧ t.plu.held.map (·.contact) = s.plu.held.map (·.contact) ++ [c] ∧
          (∃ r, t.plu.held.getLast? = some r ∧ r = ⟨c, n, pair, s.grf.direction, .placed, r.tags⟩) ∧
          t = ({ s with plu := { s.plu with
            held := s.plu.held ++ [⟨c, n, pair, s.grf.direction, .placed, []⟩] } } : State).placeRecord c) ∧
      (c ∉ s.plu.held.map (·.contact) → s.plu.held.length < 24 → s.stc.station = .reloading →
        t = { s with plu := { s.plu with held := s.plu.held ++ [⟨c, n, pair, s.grf.direction, .spent, []⟩] } }) ∧
      (c ∉ s.plu.held.map (·.contact) → u = s) ∧
      (∀ r, s.plu.held.find? (·.contact == c) = some r →
        let v := r.tags.foldl (fun (x : State) tag => x.releaseHolder .normal tag) s
        u = { v with plu := { s.plu with held := s.plu.held.filter (·.contact ≠ c) } }) ∧
      State.NotesOnly s u ∧ u.plu.held = s.plu.held.filter (·.contact ≠ c))) ∧
  (∀ (s : State) (c : Nat) (r : HeldRecord), s.plu.held.find? (·.contact == c) = some r →
    let l := s.mst.lookup r.ordinal r.pair s.grf.direction s.grf.registration
    let requests := l.items.map fun i : NoteItem => (⟨i.pitch + i.interval + l.transposition, i.slot, i.articulation,
      i.staccatoMs, i.levelOffset, .placement⟩ : NoteRequest)
    let u : State := { s with
      stc := { s.stc with counters := { s.stc.counters with
        mapMisses := min (s.stc.counters.mapMisses + l.misses) 65535 } }
      plu := { s.plu with held := s.plu.held.map fun x =>
        if x.contact = c then { x with state := .placed, direction := s.grf.direction } else x } }
    s.placeRecord c = match State.sendRequests c requests u with
      | (v, none) => v
      | (v, some waiting) => { v with plu := { v.plu with suspended := some ⟨c, waiting, [], none⟩ } }) ∧
  ∀ (s : State) (c : Nat),
    State.sendRequests c [] s = (s, none) ∧
    ∀ (r : NoteRequest) (rs : List NoteRequest),
      State.sendRequests c (r :: rs) s = match s.handleRequest r with
        | (.tag tag, u) => State.sendRequests c rs { u with plu := { u.plu with held := u.plu.held.map fun x =>
            if x.contact = c then { x with tags := x.tags ++ [tag] } else x } }
        | (.unplaced, u) => State.sendRequests c rs { u with stc := { u.stc with counters := { u.stc.counters with
            unplacedNotes := min (u.stc.counters.unplacedNotes + 1) 65535 } } }
        | (.waits, u) => (u, some rs)

/-- A note request finds its effective slot, the first detected of the requested slot and its two hops; without one it is
unplaced. An entry of the same slot and folded pitch takes one holder more where it has not ended; where its NOTE END is
in flight the request waits; another ENDING entry is revived, its queued END withdrawn or its owed end cancelled, but not
in a slot at its limit. With no such entry the request is unplaced in a slot of limit 0; at the limit it steals the
slot's oldest active entry; in a full roster the oldest active entry of all, and it is unplaced where that frees none; and
otherwise it makes a STARTING entry with the first free tag, its NOTE START queued with its velocity. A victim's end: a
START not in flight is withdrawn and the entry freed, a frame in flight leaves an owed end, and else a NOTE END is queued;
its tag leaves every tag list. -/
def Obligations.RequestsMergeWaitOrStartANote : Prop :=
  (∀ (o : OfferUnit) (k j : Slot) (d : Detected),
    let hops : Slot × Slot :=
      [(2, 4), (5, 3), (0, 4), (1, 5), (2, 0), (1, 3), (5, 1), (1, 5)].getD k.val (0, 0)
    o.effective k = some (j, d) ↔ o.table.get j = some d ∧
      (j = k ∨ o.table.get k = none ∧ (j = hops.1 ∨ o.table.get hops.1 = none ∧ j = hops.2))) ∧
  (∀ (s : State) (r : NoteRequest), s.nrs.Lawful →
    (s.ofu.effective r.slot = none → s.handleRequest r = (.unplaced, s)) ∧
    ∀ (k : Slot) (d : Detected), s.ofu.effective r.slot = some (k, d) →
      let pitch := (fold r.rawPitch d.low d.high).toNat
      (∀ e ∈ s.nrs.roster, e.slot = k → e.pitch = pitch →
        (e.state ≠ .ending →
          s.handleRequest r = (.tag e.tag, { s with nrs := { s.nrs with roster := s.nrs.roster.map fun x =>
            if x.tag = e.tag then
              (if e.articulation = .staccato ∧ r.articulation = .sustain then
                { x with holders := x.holders + 1, articulation := .sustain, deadline := none }
               else { x with holders := x.holders + 1 })
            else x } })) ∧
        (e.state = .ending → e.queued = .stop → s.tagInFlight e.tag = true →
          s.handleRequest r = (.waits, { s with nrs := { s.nrs with waiting := some r } })) ∧
        (e.state = .ending → ¬(e.queued = .stop ∧ s.tagInFlight e.tag = true) →
          s.ofu.limit.get k ≤ s.nrs.count k → s.handleRequest r = (.unplaced, s)) ∧
        (e.state = .ending → ¬(e.queued = .stop ∧ s.tagInFlight e.tag = true) →
          s.nrs.count k < s.ofu.limit.get k → ∃ t, s.handleRequest r = (.tag e.tag, t) ∧
            t.nrs = { s.nrs with roster := s.nrs.roster.map fun x => if x.tag = e.tag then { x with
              state := if e.queued = .start then .starting else .sounding
              queued := if e.queued = .stop then .noFrame else e.queued
              endArticulation := none
              holders := 1
              articulation := r.articulation
              deadline := if r.articulation = .staccato then some (ms r.staccatoMs) else none } else x } ∧
            t.lkc.noteQueue = (if e.queued = .stop then s.lkc.noteQueue.filter (·.frame.tag? ≠ some e.tag)
              else s.lkc.noteQueue) ∧
            (e.queued ≠ .stop → s.queueInFlight = true →
              t.lkc.tx = s.lkc.tx.map fun a => { a with withdraw := false }) ∧
            t.plu = s.plu ∧ t.stc = s.stc ∧ State.NotesOnly s t)) ∧
      ((∀ e ∈ s.nrs.roster, ¬(e.slot = k ∧ e.pitch = pitch)) →
        (s.ofu.limit.get k = 0 → s.handleRequest r = (.unplaced, s)) ∧
        (s.ofu.limit.get k ≠ 0 → s.nrs.count k = s.ofu.limit.get k →
          ∃ v, s.nrs.roster.find? (fun e => e.slot == k && e.state != .ending) = some v ∧
            s.handleRequest r = (s.endVictim v.tag .stolen).handleRequest r) ∧
        (s.nrs.count k < s.ofu.limit.get k → s.nrs.roster.length = 32 →
          ((∀ e ∈ s.nrs.roster, e.state = .ending) → s.handleRequest r = (.unplaced, s)) ∧
          ∀ v, s.nrs.roster.find? (·.state != .ending) = some v →
            (v.state = .starting → s.tagInFlight v.tag = false →
              s.handleRequest r = (s.endVictim v.tag .stolen).handleRequest r) ∧
            (v.state = .sounding ∨ s.tagInFlight v.tag = true →
              s.handleRequest r = (.unplaced, s.endVictim v.tag .stolen))) ∧
        (s.nrs.count k < s.ofu.limit.get k → s.nrs.roster.length < 32 →
          ∃ i < 256, ∃ t, (let tag := (s.nrs.nextTag + i) % 256
            s.handleRequest r = (.tag tag, t) ∧ (∀ e ∈ s.nrs.roster, e.tag ≠ tag) ∧
            (∀ j < i, ∃ e ∈ s.nrs.roster, e.tag = (s.nrs.nextTag + j) % 256) ∧
            t.nrs = { s.nrs with
              roster := s.nrs.roster ++ [⟨tag, k, pitch, r.articulation, 1, .starting, .start, none,
                if r.articulation = .staccato then some (ms r.staccatoMs) else none, false⟩]
              nextTag := (tag + 1) % 256 } ∧
            t.lkc.noteQueue = s.lkc.noteQueue ++ [⟨.start tag k pitch
              (if r.articulation = .swell then 1
               else (max 1 (min 127 ((s.lvu.sectionLevel.get k : Int) + r.levelOffset))).toNat)
              (if r.origin = .reversal then .reversal else if r.articulation = .sustain then .normal
               else if r.articulation = .staccato then .staccato else .swell), 0⟩] ∧
            t.plu = s.plu ∧ t.stc = s.stc ∧ State.NotesOnly s t)))) ∧
  ∀ (s : State) (v : RosterEntry) (art : EndArticulation), s.nrs.Lawful → v ∈ s.nrs.roster → v.state ≠ .ending →
    let t := s.endVictim v.tag art
    let owed := s.tagInFlight v.tag = true ∧ (v.state = .starting ∨ v.queued = .refreshStart)
    State.NotesOnly s t ∧
    t.plu = { s.plu with held := s.plu.held.map fun r => { r with tags := r.tags.filter (· ≠ v.tag) } } ∧
    (v.state = .starting → s.tagInFlight v.tag = false →
      t.nrs = { s.nrs with roster := s.nrs.roster.filter (·.tag ≠ v.tag) } ∧ t.stc = s.stc ∧
        t.lkc.noteQueue = s.lkc.noteQueue.filter (·.frame.tag? ≠ some v.tag)) ∧
    (owed →
      t.nrs = { s.nrs with roster := s.nrs.roster.map fun x => if x.tag = v.tag then
        { x with state := .ending, endArticulation := some art, deadline := none } else x } ∧ t.stc = s.stc ∧
        t.lkc.noteQueue = s.lkc.noteQueue ∧ t.lkc.tx = s.lkc.tx.map fun a => { a with withdraw := true }) ∧
    (v.state = .sounding → ¬owed →
      t.nrs = { s.nrs with roster := s.nrs.roster.map fun x => if x.tag = v.tag then
        { x with state := .ending, queued := .stop, endArticulation := some art, deadline := none } else x } ∧
        t.stc = { s.stc with counters := { s.stc.counters with
          stolenNotes := if art = .stolen then min (s.stc.counters.stolenNotes + 1) 65535
            else s.stc.counters.stolenNotes } } ∧
        t.lkc.noteQueue = (if v.queued = .refreshStart then s.lkc.noteQueue.map fun i =>
            if i.frame.tag? = some v.tag then ⟨.stop v.tag art, 0⟩ else i
          else s.lkc.noteQueue ++ [⟨.stop v.tag art, 0⟩]))

/-! ## The bellows sensor -/

/-- SAMPLE_TIMER_EXPIRY: a conversion still outstanding is a missed sample, counted to at most 8; the eighth in a row
loses an ACTIVE sensor, with e and L at 0, the direction held and the capture samples discarded, and hands direction and
level 0 to the group of a LOCAL station; then a new conversion is started and the timer loaded with the next full period.
The sensor's select line is inactive at a station without the
bellows role and while RESET is low; that a conversion outstanding makes it active is the model's reading (log entry 20,
DEDUCED). -/
def Obligations.SampleTimerExpiryStartsAConversion : Prop :=
  (∀ (s : State), s.blw.settings.role = false ∨ s.resetLow = true → s.sensorSelect = false) ∧
  ∀ (s : State), s.resetLow = false → s.blw.phase ≠ .off → s.blw.sampleTimer.running = true →
    ∃ t, exec .sampleTimerExpiry s = .next t ∧ t.blw.outstanding = true ∧ t.sensorSelect = s.blw.settings.role ∧
      t.blw.sampleTimer = some (ms s.blw.settings.samplePeriod) ∧
      (s.blw.outstanding = false →
        t = { s with blw := { s.blw with outstanding := true, sampleTimer := t.blw.sampleTimer } }) ∧
      (s.blw.outstanding = true → s.blw.missed + 1 < 8 ∨ s.blw.sensorLost = true →
        t = { s with blw := { s.blw with
          missed := min (s.blw.missed + 1) 8
          sampleTimer := t.blw.sampleTimer } }) ∧
      (s.blw.outstanding = true → 8 ≤ s.blw.missed + 1 → s.blw.sensorLost = false →
        t.blw = { s.blw with
          missed := 8
          sensorLost := true
          magnitude := 0
          level := 0
          samples := []
          sampleTimer := t.blw.sampleTimer
          heartbeat := t.blw.heartbeat } ∧
        t.stc.trouble = { s.stc.trouble with sensorLost := true } ∧
        (s.stc.station = .run → s.blw.phase = .measuring → t.blw.heartbeat = some (ms 20) ∧
          t.lkc.updates.bellows = some ⟨.bellows s.grf.ownGroup s.blw.direction 0 true, 0⟩) ∧
        (s.stc.station ≠ .run ∨ s.blw.phase ≠ .measuring → t.blw.heartbeat = s.blw.heartbeat) ∧
        (s.grf.sourceMode = .localUnit → t.grf = { s.grf with direction := s.blw.direction, level := 0 }) ∧
        (s.grf.sourceMode = .follow → t.grf = s.grf) ∧
        (let lost : State := { s with
           stc := { s.stc with trouble := { s.stc.trouble with sensorLost := true } }
           blw := { s.blw with
             missed := 8
             outstanding := false
             sensorLost := true
             magnitude := 0
             level := 0
             samples := [] } }
         let handed := if s.grf.sourceMode = .localUnit then lost.setGroup s.blw.direction 0 else lost
         t = { handed with
           blw := t.blw
           lkc := if s.stc.station = .run ∧ s.blw.phase = .measuring then { handed.lkc with
               updates := { handed.lkc.updates with
                 bellows := some ⟨.bellows s.grf.ownGroup s.blw.direction 0 true, 0⟩ }
               tx := handed.lkc.tx.map fun a =>
                 if a.source = .table .bellows then { a with rewritten := true, withdraw := false } else a }
             else handed.lkc }) ∧
        State.NotesOnly { s with
          stc := { s.stc with trouble := t.stc.trouble }
          blw := t.blw
          grf := { s.grf with direction := t.grf.direction, level := t.grf.level } } t)

/-- SENSOR_SAMPLE in MEASURING: pressure, direction with hysteresis, magnitude and smoothing follow from the count, the
level is read from the curve, a lost sensor is ACTIVE again, a LOCAL station's group takes direction and level, and the
BELLOWS entry is written in RUN where level, direction or sensor state changed. A turn so taken reverses the PLACED
records of the other direction: each is looked up afresh, its misses counted; an item takes the first free occurrence of
a tag of its slot and pitch; untaken occurrences are released with REVERSAL; the other items are requested; and one BOW
names the slots with an entry that was SOUNDING at the turn, is SOUNDING now and is held by a reversed record, or is owed
while a BOW is in flight. -/
def Obligations.MeasuringSampleGoesThroughTheChain : Prop :=
  (∀ (s : State) (count : BitVec 16), s.resetLow = false → s.blw.phase = .measuring → s.blw.outstanding = true →
    let c := s.blw.settings
    let p : Int := max (-2047) (min 2047 ((count.toInt - s.blw.zero) / 2 ^ c.shift))
    let margin : Int := c.deadBand + c.hysteresis
    let direction : Direction :=
      if s.blw.direction = .push ∧ p < -margin then .pull
      else if s.blw.direction = .pull ∧ p > margin then .push
      else s.blw.direction
    let m : Int := if p.natAbs > c.deadBand then p.natAbs - c.deadBand else 0
    let d := m - s.blw.magnitude
    let q := roundAway d (2 ^ c.smoothing)
    let e := s.blw.magnitude + (if q = 0 ∧ 0 < d then 1 else if q = 0 ∧ d < 0 then -1 else q)
    let level := levelOf c e
    let changed := s.blw.level ≠ level ∨ s.blw.direction ≠ direction ∨ s.blw.sensorLost = true
    ∃ t, exec (.sensorSample count false) s = .next t ∧
      t.blw = { s.blw with
        direction := direction
        magnitude := e
        level := level
        sensorLost := false
        missed := 0
        outstanding := false
        heartbeat := t.blw.heartbeat } ∧
      (s.stc.station = .run → changed → t.blw.heartbeat = some (ms 20) ∧
        t.lkc.updates.bellows = some ⟨.bellows s.grf.ownGroup direction level false, 0⟩) ∧
      (s.stc.station ≠ .run ∨ ¬changed →
        t.blw.heartbeat = s.blw.heartbeat ∧ t.lkc.updates.bellows = s.lkc.updates.bellows) ∧
      t.stc.trouble = (if s.blw.sensorLost = true then { s.stc.trouble with sensorLost := false } else s.stc.trouble) ∧
      (s.grf.sourceMode = .localUnit → t.grf.direction = direction ∧ t.grf.level = level ∧
        let u := ({ s with stc := { s.stc with trouble := t.stc.trouble }, blw := t.blw } : State).setGroup direction
          level
        t = { u with lkc := { u.lkc with
          updates := { u.lkc.updates with bellows := t.lkc.updates.bellows }
          tx := t.lkc.tx } }) ∧
      (s.grf.sourceMode = .follow → t.grf = s.grf) ∧
      State.NotesOnly { s with
        stc := { s.stc with trouble := t.stc.trouble }
        blw := t.blw
        grf := { s.grf with direction := t.grf.direction, level := t.grf.level } } t) ∧
  (∀ (n : NoteRoster) (o : OfferUnit) (c misses : Nat) (tags : List Nat) (requests : List NoteRequest),
    let m := (Reversed.mk c tags (requests.map fun q => (q, o.resolve q)) misses).matched n
    let note := fun tag : Nat => (n.roster.find? (·.tag == tag)).map fun e => (e.slot, e.pitch)
    m.contact = c ∧ m.kept.Sublist tags ∧ m.released.Sublist tags ∧ m.unmatched.Sublist requests ∧
      m.kept.length + m.released.length = tags.length ∧
      m.released.filter (fun tag => note tag = none) = tags.filter (fun tag => note tag = none) ∧
      m.unmatched.filter (fun q => o.resolve q = none) = requests.filter (fun q => o.resolve q = none) ∧
      ∀ (k : Slot) (pitch : Nat),
        let asked := requests.filter fun q => o.resolve q = some (k, pitch)
        let holding := tags.filter fun tag => note tag = some (k, pitch)
        m.kept.filter (fun tag => note tag = some (k, pitch)) = holding.take asked.length ∧
          m.released.filter (fun tag => note tag = some (k, pitch)) = holding.drop asked.length ∧
          m.unmatched.filter (fun q => o.resolve q = some (k, pitch)) = asked.drop holding.length) ∧
  (∀ (s : State),
    let found := s.plu.held.filter fun r => r.state = .placed ∧ r.direction ≠ s.grf.direction
    let look := fun r : HeldRecord => s.mst.lookup r.ordinal r.pair s.grf.direction s.grf.registration
    let contacts := found.map (·.contact)
    let u : State := { s with
      stc := { s.stc with counters := { s.stc.counters with
        mapMisses := min (s.stc.counters.mapMisses + (found.map fun r => (look r).misses).sum) 65535 } }
      plu := { s.plu with held := s.plu.held.map fun r =>
        if r.contact ∈ contacts then { r with direction := s.grf.direction } else r }
      nrs := { s.nrs with roster := s.nrs.roster.map fun e =>
        { e with soundingAtTurn := e.state = .sounding } } }
    let requests := fun r : HeldRecord => (look r).items.map fun i : NoteItem =>
      (⟨i.pitch + i.interval + (look r).transposition, i.slot, i.articulation, i.staccatoMs, i.levelOffset,
        .reversal⟩ : NoteRequest)
    let matched := found.map fun r =>
      (Reversed.mk r.contact r.tags ((requests r).map fun q => (q, s.ofu.resolve q)) (look r).misses).matched u.nrs
    let v := matched.foldl (fun (t : State) m => m.released.foldl (fun x tag => x.releaseHolder .reversal tag)
      { t with plu := { t.plu with held := t.plu.held.map fun r =>
        if r.contact = m.contact then { r with tags := m.kept } else r } }) u
    s.reversal = State.reversalThird contacts (matched.map fun m => (m.contact, m.unmatched)) v) ∧
  (∀ (s : State) (tag : Nat) (art : EndArticulation),
    (∀ e, s.nrs.roster.find? (·.tag == tag) = some e → e.state ≠ .ending →
      let u : State := { s with nrs := { s.nrs with roster := s.nrs.roster.map fun x =>
        if x.tag = tag then { x with holders := x.holders - 1 } else x } }
      s.releaseHolder art tag = if e.holders ≤ 1 then u.endEntry tag art else u) ∧
    ((∀ e, s.nrs.roster.find? (·.tag == tag) = some e → e.state = .ending) → s.releaseHolder art tag = s) ∧
    s.endVictim tag art = { s.endEntry tag art with plu := { s.plu with held := s.plu.held.map fun r =>
      { r with tags := r.tags.filter (· ≠ tag) } } }) ∧
  (∀ (s : State) (contacts : List Nat),
    State.reversalThird contacts [] s = s.reversalFourth contacts ∧
    ∀ (c : Nat) (rs : List NoteRequest) (later : List (Nat × List NoteRequest)),
      State.reversalThird contacts ((c, rs) :: later) s = match State.sendRequests c rs s with
        | (v, none) => State.reversalThird contacts later v
        | (v, some waiting) => { v with plu := { v.plu with suspended := some ⟨c, waiting, later, some contacts⟩ } }) ∧
  ∀ (s : State) (contacts : List Nat),
    ∃ mask, (∀ k : Slot, SlotMask.has mask k = true ↔ ∃ e ∈ s.nrs.roster, e.slot = k ∧ e.soundingAtTurn = true ∧
        e.state = .sounding ∧ ∃ r ∈ s.plu.held, r.contact ∈ contacts ∧ e.tag ∈ r.tags) ∧
      (s.bowInFlight = false → s.reversalFourth contacts = { s with
        plu := { s.plu with owedBow := none }
        lkc := { s.lkc with noteQueue := s.lkc.noteQueue.filter (!·.frame.isBow) ++
          if mask = 0#8 then [] else [⟨.bow s.grf.direction mask, 0⟩] } }) ∧
      (s.bowInFlight = true → s.reversalFourth contacts = { s with plu := { s.plu with
        owedBow := if mask = 0#8 then none else some (s.grf.direction, mask) } })

/-- SENSOR_SAMPLE in ZEROING: the count joins the attempt; the sixteenth ends zeroing with the mean where the spread is
within the tolerance, fails the attempt where it is not, and at the eighth attempt ends zeroing with the stored zero. A
late answer, one with no conversion outstanding and one while the unit is OFF have no effect. -/
def Obligations.ZeroingSampleJoinsTheAttempt : Prop :=
  ∀ (s : State) (count : BitVec 16), s.resetLow = false →
    (exec (.sensorSample count true) s = .next s) ∧
    (s.blw.phase = .off ∨ s.blw.outstanding = false → exec (.sensorSample count false) s = .next s) ∧
    (s.blw.phase = .zeroing → s.blw.outstanding = true →
      let samples := s.blw.samples ++ [count.toInt]
      let tolerance : Int := max (2 * s.blw.settings.deadBand) 8
      let quiet := ∀ x ∈ samples, ∀ y ∈ samples, x - y ≤ tolerance
      let b := { s.blw with outstanding := false, missed := 0, sensorLost := false }
      let trouble :=
        if s.blw.sensorLost = true then { s.stc.trouble with sensorLost := false } else s.stc.trouble
      ∃ t, exec (.sensorSample count false) s = .next t ∧ t.stc.trouble = trouble ∧
        (samples.length < 16 → t = { s with stc := { s.stc with trouble := trouble }, blw := { b with
          samples := samples } }) ∧
        (samples.length = 16 → ¬quiet → s.blw.attempt < 8 → t = { s with
          stc := { s.stc with trouble := trouble }
          blw := { b with samples := [], attempt := s.blw.attempt + 1 } }) ∧
        (samples.length = 16 → quiet ∨ 8 ≤ s.blw.attempt →
          t.blw = { b with
            phase := .measuring
            zero := if quiet then roundAway samples.sum 16 else s.blw.settings.storedZero
            direction := .push
            magnitude := 0
            level := 0
            attempt := 0
            samples := []
            heartbeat := t.blw.heartbeat } ∧
          (s.grf.sourceMode = .localUnit → t.grf.direction = .push ∧ t.grf.level = 0) ∧
          (s.stc.station = .run → t.blw.heartbeat = some (ms 20) ∧
            t.lkc.updates.bellows = some ⟨.bellows s.grf.ownGroup .push 0 false, 0⟩) ∧
          State.NotesOnly { s with
            stc := { s.stc with trouble := trouble }
            blw := t.blw
            grf := { s.grf with direction := t.grf.direction, level := t.grf.level } } t))

/-! ## Timers of the other blocks -/

/-- HEARTBEAT_TIMER_EXPIRY writes the BELLOWS entry with the unit's values of the moment and PRESENCE_TIMER_EXPIRY the
PRESENCE entry with the station's; each reloads its own timer, with 20 ms and 100 ms, marks an attempt of its own entry in
flight as rewritten, with no removal pending, and touches nothing else. -/
def Obligations.HeartbeatAndPresenceAreRewritten : Prop :=
  ∀ (s : State), s.resetLow = false →
    (s.stc.station = .run → s.blw.phase = .measuring → s.blw.heartbeat.running = true →
      ∃ t, exec .heartbeatTimerExpiry s = .next t ∧
        t.lkc.updates.bellows = some ⟨.bellows s.grf.ownGroup s.blw.direction s.blw.level s.blw.sensorLost, 0⟩ ∧
        t = { s with
          blw := { s.blw with heartbeat := some (ms 20) }
          lkc := { s.lkc with
            updates := { s.lkc.updates with bellows := t.lkc.updates.bellows }
            tx := s.lkc.tx.map fun a =>
              if a.source = .table .bellows then { a with rewritten := true, withdraw := false } else a } }) ∧
    (s.working = true → s.ptb.presenceTimer.running = true →
      ∃ t, exec .presenceTimerExpiry s = .next t ∧
        t.lkc.updates.presence = some ⟨.presence s.grf.ownGroup s.blw.settings.role s.grf.registrationMode
          s.stl.slotUse s.grf.registration s.stc.station s.stc.trouble, 0⟩ ∧
        t = { s with
          ptb := { s.ptb with presenceTimer := some (ms 100) }
          lkc := { s.lkc with
            updates := { s.lkc.updates with presence := t.lkc.updates.presence }
            tx := s.lkc.tx.map fun a =>
              if a.source = .table .presence then { a with rewritten := true, withdraw := false } else a } })

/-- STALE_TIMER_EXPIRY while FRESH: STALE, with the values held. LOST_TIMER_EXPIRY while STALE: LOST with L = 0, the
direction held, both timers stopped, and BELLOWS LOST in the trouble set. ENGINE_LIVENESS_TIMER_EXPIRY: the engine is
ABSENT and ENGINE ABSENT enters the trouble set. LINK_DROP_TIMER_EXPIRY: LINK DROP leaves it. A fall of L to 0 in RUN with
a record PLACED starts the breath timer with the hold time, or fades the PLACED records at once under a hold time of 0; it
is held while a request is outstanding, and otherwise it leaves the Placement Unit as it is. -/
def Obligations.TimersMoveFreshnessAndTroubleSet : Prop :=
  ∀ (s : State), s.resetLow = false → s.working = true →
    (s.grf.staleTimer.running = true → s.grf.freshness = .fresh →
      exec .staleTimerExpiry s = .next { s with grf := { s.grf with freshness := .stale, staleTimer := none } }) ∧
    (s.grf.lostTimer.running = true → s.grf.freshness = .stale →
      ∃ t, exec .lostTimerExpiry s = .next t ∧
        State.NotesOnly { s with
          stc := { s.stc with trouble := { s.stc.trouble with bellowsLost := true } }
          grf := { s.grf with freshness := .lost, staleTimer := none, lostTimer := none, level := 0 } } t ∧
        let placed := ∃ r ∈ s.plu.held, r.state = .placed
        (s.grf.level = 0 ∨ s.playing = false → t.plu = s.plu) ∧
        (s.grf.level ≠ 0 → s.playing = true → s.plu.suspended.isSome = true →
          t.plu = { s.plu with heldEvents := s.plu.heldEvents ++ [.fall] }) ∧
        (s.grf.level ≠ 0 → s.plu.suspended = none → s.stc.station ≠ .run ∨ ¬placed → t.plu = s.plu) ∧
        (s.grf.level ≠ 0 → s.plu.suspended = none → s.stc.station = .run → placed →
          (s.plu.holdTime ≠ 0 → t.plu = { s.plu with breathTimer := some (ms s.plu.holdTime) }) ∧
          (s.plu.holdTime = 0 → s.HeldListLawful → t.plu = { s.plu with
            breathTimer := none
            held := s.plu.held.map fun r =>
              if r.state = .placed then { r with state := .armed, tags := [] } else r }))) ∧
    (s.ofu.livenessTimer.running = true →
      exec .engineLivenessTimerExpiry s = .next { s with
        stc := { s.stc with trouble := { s.stc.trouble with engineAbsent := true } }
        ofu := { s.ofu with engine := .absent, livenessTimer := none } }) ∧
    (s.lkc.linkDropTimer.running = true →
      exec .linkDropTimerExpiry s = .next { s with
        stc := { s.stc with trouble := { s.stc.trouble with linkDrop := false } }
        lkc := { s.lkc with linkDropTimer := none } })

/-- BREATH_TIMER_EXPIRY: with no request outstanding the fade is taken: each tag of each PLACED record, in the order of the
list and of the record's tag list, gives up one holder with FADE, every PLACED record becomes ARMED with no tags, every
frame added to the note queue is a NOTE END with FADE, and nothing is counted. While a request is outstanding the expiry is
held. A fall of L to 0 taken in RUN with a record PLACED starts the breath timer with the hold time, and under a hold time
of 0 is such a fade at once. -/
def Obligations.BreathTimerExpiryFadesPlacedRecords : Prop :=
  (∀ (s : State), s.resetLow = false → s.playing = true → s.plu.breathTimer.running = true →
    (s.plu.suspended.isSome = true →
      exec .breathTimerExpiry s = .next { s with plu := { s.plu with
        breathTimer := none
        heldEvents := s.plu.heldEvents ++ [.breathExpiry] } }) ∧
    (s.plu.suspended = none → s.HeldListLawful →
      ∃ t, exec .breathTimerExpiry s = .next t ∧
        (let faded := (s.plu.held.filter (·.state = .placed)).flatMap (·.tags)
         let u := faded.foldl (fun (x : State) tag => x.releaseHolder .fade tag) s
         t = { u with plu := { s.plu with
           breathTimer := none
           held := s.plu.held.map fun r => if r.state = .placed then { r with state := .armed, tags := [] } else r } }) ∧
        State.NotesOnly s t ∧ t.stc = s.stc ∧
        (∀ q ∈ t.lkc.noteQueue, q ∈ s.lkc.noteQueue ∨ ∃ tag, q.frame = .stop tag .fade) ∧
        t.nrs.nextTag = s.nrs.nextTag)) ∧
  ∀ (s : State), s.HeldListLawful → s.takeFall =
    if s.grf.level = 0 ∧ s.stc.station = .run ∧ (∃ r ∈ s.plu.held, r.state = .placed) then
      (if s.plu.holdTime ≠ 0 then { s with plu := { s.plu with breathTimer := some (ms s.plu.holdTime) } }
       else
         let faded := (s.plu.held.filter (·.state = .placed)).flatMap (·.tags)
         let u := faded.foldl (fun (x : State) tag => x.releaseHolder .fade tag) s
         { u with plu := { s.plu with
           breathTimer := none
           held := s.plu.held.map fun r => if r.state = .placed then { r with state := .armed, tags := [] } else r } })
    else s

/-- STACCATO_DEADLINE_EXPIRY of a STARTING or SOUNDING entry: its tag leaves every tag list, whatever its holders; a
START not in flight is withdrawn and the entry freed with no frame; otherwise the entry is ENDING with articulation
NORMAL and no deadline, its NOTE END queued at once where the entry had no frame queued, in the place of a REFRESH-START
that is queued and not in flight, and owed, with a withdrawal held, where its START or REFRESH-START is in flight. It is
ended as every victim is. Every other entry stands. -/
def Obligations.StaccatoDeadlineEndsTheNote : Prop :=
  ∀ (s : State) (tag : Nat) (e : RosterEntry), s.resetLow = false → s.playing = true → s.nrs.Lawful →
    s.nrs.roster.find? (·.tag == tag) = some e → e.state ≠ .ending → e.deadline.running = true →
    ∃ t, exec (.staccatoDeadlineExpiry tag) s = .next t ∧ t = s.endVictim tag .normal ∧
      State.NotesOnly s t ∧ t.stc = s.stc ∧
      t.plu = { s.plu with held := s.plu.held.map fun r => { r with tags := r.tags.filter (· ≠ tag) } } ∧
      (e.state = .starting → s.tagInFlight tag = false →
        t.nrs.roster = s.nrs.roster.filter (·.tag ≠ tag) ∧
          t.lkc.noteQueue = s.lkc.noteQueue.filter (·.frame.tag? ≠ some tag)) ∧
      (e.state = .sounding ∨ s.tagInFlight tag = true →
        t.nrs.roster.map (·.tag) = s.nrs.roster.map (·.tag) ∧
        (∃ x ∈ t.nrs.roster, x.tag = tag ∧ x.state = .ending ∧ x.endArticulation = some .normal ∧ x.deadline = none) ∧
        ∀ x ∈ s.nrs.roster, x.tag ≠ tag → x ∈ t.nrs.roster) ∧
      (e.state = .sounding → e.queued = .noFrame →
        t.lkc.noteQueue = s.lkc.noteQueue ++ [⟨.stop tag .normal, 0⟩] ∧
        ∃ x ∈ t.nrs.roster, x.tag = tag ∧ x.queued = .stop) ∧
      (e.state = .sounding → e.queued = .refreshStart → s.tagInFlight tag = false →
        t.lkc.noteQueue = s.lkc.noteQueue.map (fun q =>
          if q.frame.tag? = some tag then ⟨.stop tag .normal, 0⟩ else q) ∧
        ∃ x ∈ t.nrs.roster, x.tag = tag ∧ x.queued = .stop) ∧
      (s.tagInFlight tag = true → e.state = .starting ∨ e.queued = .refreshStart →
        t.lkc.noteQueue = s.lkc.noteQueue ∧ t.lkc.tx = s.lkc.tx.map (fun a => { a with withdraw := true }) ∧
        ∃ x ∈ t.nrs.roster, x.tag = tag ∧ x.queued = e.queued)

/-- PEER_EXPIRY of a LIVE record: it becomes ABSENT with nothing known, a FOLLOW station finds its lowest-address candidate
afresh, losing its source where none is left, the shares and limits are reckoned without the peer, and the slots above
their limit are trimmed. That the Group Follower takes the report first is the model's choice (log entry 18). -/
def Obligations.PeerExpiryForgetsThePeer : Prop :=
  (∀ (s : State) (a : Nat), s.resetLow = false → s.working = true → (s.ptb.peer a).live = true →
    (s.ptb.peer a).expiry.running = true →
    ∃ t, exec (.peerExpiry a) s = .next t ∧
      t.ptb = { s.ptb with peers := s.ptb.peers.set (a - 1) ⟨false, none, none⟩ } ∧ t.LimitsCurrent ∧
      (s.grf.sourceMode = .localUnit → t.grf = s.grf) ∧
      (s.grf.sourceMode = .follow → t.grf.source = t.lowestCandidate ∧
        (t.grf.source.isSome = true → t.grf = { s.grf with source := t.grf.source }) ∧
        (t.grf.source = none → s.grf.freshness ≠ .lost →
          t.stc.trouble = { s.stc.trouble with bellowsLost := true } ∧
          t.grf = { s.grf with
            source := none
            freshness := .lost
            staleTimer := none
            lostTimer := none
            level := 0 })) ∧
      (let v := ({ s with ptb := t.ptb } : State).followReport
       t = ({ v with ofu := { v.ofu with share := t.ofu.share, limit := t.ofu.limit } } : State).trimAll) ∧
      State.NotesOnly { s with
        stc := { s.stc with trouble := t.stc.trouble }
        grf := t.grf
        ofu := { s.ofu with share := t.ofu.share, limit := t.ofu.limit }
        ptb := t.ptb } t) ∧
  ∀ (s : State), s.followReport =
    if s.grf.sourceMode = .localUnit then s
    else match s.lowestCandidate with
      | some a => { s with grf := { s.grf with source := some a } }
      | none =>
        if s.grf.freshness = .lost then { s with grf := { s.grf with source := none } }
        else ({ s with
          stc := { s.stc with trouble := { s.stc.trouble with bellowsLost := true } }
          grf := { s.grf with source := none, freshness := .lost, staleTimer := none, lostTimer := none } } :
            State).setGroup s.grf.direction 0

/-! ## The transmitter -/

/-- IDLE_MOMENT with the transmitter FREE and the rate settled: the arbiter begins an attempt of the first present of the
BELLOWS entry, the head of the note queue, the REGISTRATION entry, the LEVEL entries in ascending slot order, the STATUS
entry and the PRESENCE entry, and of none where none is present, and drives that frame's bits; otherwise no attempt begins.
The attempt ends by the bits read: with a success where every bit reads as sent, with a lost arbitration at a first
mismatch in the arbitration field where recessive was sent, and with a failure at any other; bits that show no mismatch
and stop short of the frame's end, and an attempt that is not in flight, end nothing. That such bits change nothing is the
model's choice (log entry 4, DESIGN CHOICE), and that the bits driven are forgotten at an idle moment at which no attempt
begins is its reading (log entry 19, DEDUCED). That a recomputation after the beginning of an attempt falls together with
no restart report before it is the model's choice (log entry 23, DESIGN CHOICE). -/
def Obligations.ArbiterChoosesTheFirstPresent : Prop :=
  (∀ (s : State), s.resetLow = false →
    (s.working = true → s.lkc.listening = false → s.lkc.linkRate.isSome = true → s.lkc.tx = none →
      let u := s.lkc.updates
      ∃ t, exec .idleMoment s = .next t ∧
        t = { s with
          lvu := { s.lvu with
            justRestarted := if t.lkc.tx.isSome = true then .all false else s.lvu.justRestarted }
          lkc := { s.lkc with tx := t.lkc.tx, driven := t.lkc.driven } } ∧
        t.lkc.driven = (match t.lkc.tx with
          | some a => frameBits (classOf a.frame.kind) s.stl.ownAddress a.frame.kind a.frame.payload
          | none => []) ∧
        (∀ e, u.bellows = some e → t.lkc.tx = some ⟨.table .bellows, e.frame, e.failures, false, false⟩) ∧
        (u.bellows = none → ∀ q rest, s.lkc.noteQueue = q :: rest →
          t.lkc.tx = some ⟨.queueHead, .note q.frame, q.failures, false, false⟩) ∧
        (u.bellows = none → s.lkc.noteQueue = [] →
          (∀ e, u.registration = some e →
            t.lkc.tx = some ⟨.table .registration, e.frame, e.failures, false, false⟩) ∧
          (u.registration = none →
            (∀ (k : Slot) (e : TableEntry), u.levels.get k = some e → (∀ j < k, u.levels.get j = none) →
              t.lkc.tx = some ⟨.table (.level k), e.frame, e.failures, false, false⟩) ∧
            ((∀ k : Slot, u.levels.get k = none) →
              (∀ e, u.status = some e → t.lkc.tx = some ⟨.table .status, e.frame, e.failures, false, false⟩) ∧
              (u.status = none →
                (∀ e, u.presence = some e →
                  t.lkc.tx = some ⟨.table .presence, e.frame, e.failures, false, false⟩) ∧
                (u.presence = none → t.lkc.tx = none)))))) ∧
    (s.lkc.tx.isSome = true → exec .idleMoment s = .next s) ∧
    (s.working = false ∨ s.lkc.listening = true ∨ s.lkc.linkRate = none → s.lkc.tx = none →
      exec .idleMoment s = .next { s with lkc := { s.lkc with driven := [] } }) ∧
    ∀ read, s.lkc.tx = none ∨ attemptResult s.lkc.driven read = none → exec (.attemptEnd read) s = .next s) ∧
  ∀ (sent read : List Bool),
    (attemptResult sent read = some .success ↔ read.take sent.length = sent) ∧
    (attemptResult sent read = none ↔ read.length < sent.length ∧ sent.take read.length = read) ∧
    ∀ i, i < sent.length → i < read.length → sent.take i = read.take i → sent[i]? ≠ read[i]? →
      attemptResult sent read =
        some (if 9 ≤ i ∧ i < 19 ∧ sent[i]? = some true then .lostArbitration else .failure)

/-- ATTEMPT_END of the head of the note queue with success, outside RELOADING: a NOTE START or REFRESH-START of an entry
that is not ENDING makes it SOUNDING with no frame queued; where its end is owed the NOTE END is queued; a NOTE END frees
its entry; and after a BOW the owed BOW is queued. In every case the frame leaves the queue. A request that waited for the
NOTE END is handled again and does not wait, and the operation that sent it goes on with its answer; where a panic owes
UNPLACED it is answered so, and the operation ends. -/
def Obligations.TransmittedNoteFramesLeaveTheQueue : Prop :=
  (∀ (s : State) (a : Attempt) (q : QueueItem) (rest : List QueueItem) (read : List Bool), s.resetLow = false →
    s.stc.station ≠ .reloading → s.lkc.tx = some a → a.source = .queueHead → s.lkc.noteQueue = q :: rest →
    attemptResult s.lkc.driven read = some .success →
    (∀ tag e, q.frame.tag? = some tag → q.frame.queuedAs ≠ .stop → s.nrs.roster.find? (·.tag == tag) = some e →
      (e.state ≠ .ending →
        exec (.attemptEnd read) s = .next { s with
          nrs := { s.nrs with roster := s.nrs.roster.map fun x =>
            if x.tag = tag then { x with state := .sounding, queued := .noFrame } else x }
          lkc := { s.lkc with tx := none, noteQueue := rest } }) ∧
      (e.state = .ending → ∀ art, e.endArticulation = some art →
        exec (.attemptEnd read) s = .next { s with
          stc := { s.stc with counters := { s.stc.counters with
            stolenNotes := if art = .stolen then min (s.stc.counters.stolenNotes + 1) 65535
              else s.stc.counters.stolenNotes } }
          nrs := { s.nrs with roster := s.nrs.roster.map fun x =>
            if x.tag = tag then { x with queued := .stop } else x }
          lkc := { s.lkc with tx := none, noteQueue := rest ++ [⟨.stop tag art, 0⟩] } })) ∧
    (∀ tag art, q.frame = .stop tag art → s.nrs.waiting = none →
      exec (.attemptEnd read) s = .next { s with
        nrs := { s.nrs with roster := s.nrs.roster.filter (·.tag ≠ tag) }
        lkc := { s.lkc with tx := none, noteQueue := rest } }) ∧
    (∀ tag art, q.frame = .stop tag art → ∀ w, s.nrs.waiting = some w →
      let u : State := { s with
        nrs := { s.nrs with roster := s.nrs.roster.filter (·.tag ≠ tag), waiting := none, answerOwed := false }
        lkc := { s.lkc with tx := none, noteQueue := rest } }
      (s.nrs.answerOwed = true → exec (.attemptEnd read) s = .next ({ u with stc := { u.stc with
        counters := { u.stc.counters with
          unplacedNotes := min (u.stc.counters.unplacedNotes + 1) 65535 } } } : State).answeredByPanic) ∧
      (s.nrs.answerOwed = false → ∀ op, s.plu.suspended = some op →
        (u.handleRequest w).1 ≠ .waits ∧
        exec (.attemptEnd read) s = .next (match u.handleRequest w with
          | (.tag t, v) => v.answered op (some t)
          | (_, v) => ({ v with stc := { v.stc with counters := { v.stc.counters with
              unplacedNotes := min (v.stc.counters.unplacedNotes + 1) 65535 } } } : State).answered op none))) ∧
    (∀ d mask, q.frame = .bow d mask →
      exec (.attemptEnd read) s = .next { s with
        plu := { s.plu with owedBow := none }
        lkc := { s.lkc with
          tx := none
          noteQueue := rest ++ s.plu.owedBow.toList.map (fun b => ⟨.bow b.1 b.2, 0⟩) } })) ∧
  (∀ (s : State),
    let u : State := { s with plu := { s.plu with suspended := none } }
    s.answeredByPanic = u.afterOperation ∧
    ∀ (op : Operation) (answer : Option Nat),
      let v : State := match answer with
        | some tag => { u with plu := { u.plu with held := u.plu.held.map fun x =>
            if x.contact = op.record then { x with tags := x.tags ++ [tag] } else x } }
        | none => u
      s.answered op answer = match State.sendRequests op.record op.requests v with
        | (x, some waiting) => { x with plu := { x.plu with suspended := some { op with requests := waiting } } }
        | (x, none) =>
          match op.reversal with
          | none => x.afterOperation
          | some contacts => (State.reversalThird contacts op.later x).afterOperation) ∧
  ∀ (s : State),
    (s.plu.suspended.isSome = true → s.afterOperation = s) ∧
    (s.plu.suspended = none →
      let u := State.placeAll s.plu.owed s
      s.afterOperation = if u.plu.suspended.isSome = true then u else State.takeHeld u.plu.heldEvents u) ∧
    State.takeHeld [] s = { s with plu := { s.plu with heldEvents := [] } } ∧
    ∀ (e : PlacementEvent) (es : List PlacementEvent),
      let u := ({ s with plu := { s.plu with heldEvents := es } } : State).takeEvent e
      State.takeHeld (e :: es) s = if u.plu.suspended.isSome = true then u else State.takeHeld es u

/-- ATTEMPT_END of the head of the note queue without success, outside RELOADING: a lost arbitration leaves the frame in
its place with its count, and a failure below the sixteenth adds 1. Where a withdrawal is pending on a START the frame is
withdrawn and its entry freed with no END; on a REFRESH-START the owed NOTE END is queued; and an owed BOW takes the
place of the BOW that failed. A request that waited for a NOTE END that did not go out is handled again, with that END
back in the queue, and the operation goes on with its answer. That it is handled again before a next attempt can begin is
the model's reading (log entry 24, DEDUCED). -/
def Obligations.UnsuccessfulNoteFramesKeepTheirPlace : Prop :=
  ∀ (s : State) (a : Attempt) (q : QueueItem) (rest : List QueueItem) (read : List Bool) (r : AttemptResult),
    s.resetLow = false → s.stc.station ≠ .reloading → s.lkc.tx = some a → a.source = .queueHead →
    s.lkc.noteQueue = q :: rest → attemptResult s.lkc.driven read = some r →
    r = .lostArbitration ∨ (r = .failure ∧ a.failures < 15) →
    (a.withdraw = false → (∀ tag, q.frame.tag? = some tag →
        ∃ e, s.nrs.roster.find? (·.tag == tag) = some e ∧ (q.frame.queuedAs = .stop ∨ e.state ≠ .ending)) →
      (q.frame.queuedAs = .stop → s.nrs.waiting = none) → (q.frame.isBow = true → s.plu.owedBow = none) →
      exec (.attemptEnd read) s = .next { s with lkc := { s.lkc with
        tx := none
        driven := []
        noteQueue := ⟨q.frame, if r = .failure then a.failures + 1 else a.failures⟩ :: rest } }) ∧
    (a.withdraw = false → ∀ tag art, q.frame = .stop tag art → ∀ w, s.nrs.waiting = some w →
      let u : State := { s with
        nrs := { s.nrs with waiting := none, answerOwed := false }
        lkc := { s.lkc with
          tx := none
          driven := []
          noteQueue := ⟨q.frame, if r = .failure then a.failures + 1 else a.failures⟩ :: rest } }
      (s.nrs.answerOwed = true → exec (.attemptEnd read) s = .next ({ u with stc := { u.stc with
        counters := { u.stc.counters with
          unplacedNotes := min (u.stc.counters.unplacedNotes + 1) 65535 } } } : State).answeredByPanic) ∧
      (s.nrs.answerOwed = false → ∀ op, s.plu.suspended = some op →
        (u.handleRequest w).1 ≠ .waits ∧
        exec (.attemptEnd read) s = .next (match u.handleRequest w with
          | (.tag t, v) => v.answered op (some t)
          | (_, v) => ({ v with stc := { v.stc with counters := { v.stc.counters with
              unplacedNotes := min (v.stc.counters.unplacedNotes + 1) 65535 } } } : State).answered op none))) ∧
    (a.withdraw = true → ∀ tag e art, q.frame.tag? = some tag → q.frame.queuedAs ≠ .stop →
      s.nrs.roster.find? (·.tag == tag) = some e → e.state = .ending → e.endArticulation = some art →
      (∀ p ∈ rest, p.frame.tag? ≠ some tag) →
      (q.frame.queuedAs = .start →
        exec (.attemptEnd read) s = .next { s with
          nrs := { s.nrs with roster := s.nrs.roster.filter (·.tag ≠ tag) }
          lkc := { s.lkc with tx := none, driven := [], noteQueue := rest } }) ∧
      (q.frame.queuedAs = .refreshStart →
        exec (.attemptEnd read) s = .next { s with
          stc := { s.stc with counters := { s.stc.counters with
            stolenNotes := if art = .stolen then min (s.stc.counters.stolenNotes + 1) 65535
              else s.stc.counters.stolenNotes } }
          nrs := { s.nrs with roster := s.nrs.roster.map fun x =>
            if x.tag = tag then { x with queued := .stop } else x }
          lkc := { s.lkc with tx := none, driven := [], noteQueue := rest ++ [⟨.stop tag art, 0⟩] } })) ∧
    (∀ d mask d' mask', q.frame = .bow d mask → a.withdraw = false → s.plu.owedBow = some (d', mask') →
      (∀ p ∈ rest, p.frame.isBow = false) →
      exec (.attemptEnd read) s = .next { s with
        plu := { s.plu with owedBow := none }
        lkc := { s.lkc with tx := none, driven := [], noteQueue := rest ++ [⟨.bow d' mask', 0⟩] } })

/-- ATTEMPT_END of an update-table entry, outside RELOADING: a transmitted entry is emptied unless it was written during
the attempt, a pending removal or none; without success it keeps its value with its count, or the newer value, and a
pending removal empties it. An attempt carried on by a reload ends unreported. That the newer value stands with its own
count while the attempt keeps the count of the value it carries, and that it stands after a success though a removal asked
after it was pending, are the model's readings (log entries 10 and 9, DEDUCED). -/
def Obligations.TableAttemptsEmptyOrKeepTheEntry : Prop :=
  ∀ (s : State) (a : Attempt) (read : List Bool) (r : AttemptResult), s.resetLow = false → s.lkc.tx = some a →
    attemptResult s.lkc.driven read = some r →
    let driven := if r = .success then s.lkc.driven else []
    (a.source = .carried →
      exec (.attemptEnd read) s = .next { s with lkc := { s.lkc with tx := none, driven := driven } }) ∧
    (∀ key, a.source = .table key → s.stc.station ≠ .reloading →
      ∃ t, exec (.attemptEnd read) s = .next t ∧ t.lkc.tx = none ∧
        (∀ key', key' ≠ key → t.lkc.updates.get key' = s.lkc.updates.get key') ∧
        (r = .success → a.rewritten = false → t.lkc.updates.get key = none) ∧
        (r = .success → a.rewritten = true → t.lkc.updates.get key = s.lkc.updates.get key) ∧
        (r = .lostArbitration ∨ (r = .failure ∧ a.failures < 15) →
          (a.withdraw = true → t.lkc.updates.get key = none) ∧
          (a.withdraw = false → a.rewritten = true → t.lkc.updates.get key = s.lkc.updates.get key) ∧
          (a.withdraw = false → a.rewritten = false →
            t.lkc.updates.get key = (s.lkc.updates.get key).map fun e =>
              ⟨e.frame, if r = .failure then a.failures + 1 else a.failures⟩)) ∧
        (r ≠ .failure ∨ a.failures < 15 → t.stc = s.stc ∧ t.lkc.linkDropTimer = s.lkc.linkDropTimer) ∧
        (∀ k, key = .level k → t.lvu = { s.lvu with removalPending := s.lvu.removalPending.set k false }) ∧
        ((∀ k, key ≠ .level k) → t.lvu = s.lvu) ∧
        t = { s with
          stc := t.stc
          lvu := t.lvu
          lkc := { s.lkc with
            updates := t.lkc.updates
            tx := none
            driven := driven
            linkDropTimer := t.lkc.linkDropTimer } })

/-- The sixteenth failure drops the frame: the block is then as after a success of the same attempt, with TRANSMIT
FAILURES counted, LINK DROP in the trouble set and its timer loaded with 1000 ms, and no frame of its own for the receiver.
That the attempt's own count decides the drop where its entry was rewritten, the newer value standing, is the model's
reading (log entry 10, DEDUCED). -/
def Obligations.DroppedFramesCountAsTransmitted : Prop :=
  ∀ (s : State) (a : Attempt) (read : List Bool), s.resetLow = false → s.lkc.tx = some a → a.source ≠ .carried →
    15 ≤ a.failures → (a.source = .queueHead → s.lkc.noteQueue ≠ []) →
    attemptResult s.lkc.driven read = some .failure →
    ∃ t, exec (.attemptEnd s.lkc.driven) { s with
        stc := { s.stc with
          counters := { s.stc.counters with transmitFailures := min (s.stc.counters.transmitFailures + 1) 65535 }
          trouble := { s.stc.trouble with linkDrop := true } }
        lkc := { s.lkc with linkDropTimer := some (ms 1000) } } = .next t ∧
      exec (.attemptEnd read) s = .next { t with lkc := { t.lkc with driven := [] } }

/-! ## The receiver -/

/-- A frame as its sender drives it is read back whole: the receiver finds it valid and reads its class, sender, kind and
payload, for every value the arbitration field and the length can carry and every length the kind accepts. So is every
frame the station sends, with its own address, the fixed class of its kind, and its own payload. -/
def Obligations.FramesAreReadAsSent : Prop :=
  (∀ (cls sender kind : Nat) (payload : List Byte), cls < 4 → sender < 16 → kind < 16 → payload.length < 16 →
    lengthOk kind payload.length = true →
    (frameBits cls sender kind payload).length = 47 + 8 * payload.length ∧
      ∃ r, readFrame (frameBits cls sender kind payload) = some r ∧ r.valid = true ∧
        r.frame = ⟨cls, sender, kind, payload⟩) ∧
  ∀ (own : Nat) (f : OutFrame), own < 16 →
    ∃ r, readFrame (f.bits own) = some r ∧ r.valid = true ∧ r.frame = ⟨classOf f.kind, own, f.kind, f.payload⟩

/-- FRAME_RECEIVED of a valid frame after an idle line, once the rate is settled: the station's own transmission, which is
the frame it drives or has just driven with success, is not delivered; a frame from address 0 or 13 is discarded, a frame
that finds 4 frames waiting is discarded and counted, and any other joins the end of the receive buffer. The first valid
frame that a listening station decodes, at any rate, settles the link rate at that rate: listening ends, the PRESENCE entry
is written and the join timer loaded, and the frame is then taken. That the frame driven is known by its bits is the
model's reading (log entry 19, DEDUCED). -/
def Obligations.ValidFramesSettleTheRateAndAreTaken : Prop :=
  (∀ (s : State) (rate : LinkRate) (cls sender kind : Nat) (payload : List Byte), s.resetLow = false →
    s.working = true → s.lkc.listening = false → s.lkc.linkRate = some rate → cls < 4 → sender < 16 → kind < 16 →
    payload.length < 16 → lengthOk kind payload.length = true →
    let bits := frameBits cls sender kind payload
    (s.lkc.driven = bits → exec (.frameReceived rate bits true) s = .next { s with lkc := { s.lkc with
      driven := if s.lkc.tx.isSome = true then bits else [] } }) ∧
    ((∀ d, readFrame s.lkc.driven = some d → d.frame ≠ ⟨cls, sender, kind, payload⟩) → sender ≠ s.stl.ownAddress →
      (sender = 0 ∨ sender = 13 → exec (.frameReceived rate bits true) s = .next s) ∧
      (sender ≠ 0 → sender ≠ 13 → 4 ≤ s.lkc.rxBuffer.length →
        exec (.frameReceived rate bits true) s = .next { s with stc := { s.stc with counters := { s.stc.counters with
          receiveErrors := min (s.stc.counters.receiveErrors + 1) 65535 } } }) ∧
      (sender ≠ 0 → sender ≠ 13 → s.lkc.rxBuffer.length < 4 →
        exec (.frameReceived rate bits true) s = .next { s with lkc := { s.lkc with
          rxBuffer := s.lkc.rxBuffer ++ [⟨cls, sender, kind, payload⟩] } }))) ∧
  ∀ (s : State) (rate : LinkRate) (cls sender kind : Nat) (payload : List Byte), s.resetLow = false →
    s.stc.station = .joining → s.lkc.listening = true → s.lkc.rxBuffer = [] → cls < 4 → sender < 16 → kind < 16 →
    payload.length < 16 → lengthOk kind payload.length = true → sender ≠ s.stl.ownAddress →
    (∀ d, readFrame s.lkc.driven = some d → d.frame ≠ ⟨cls, sender, kind, payload⟩) →
    ∃ t, exec (.frameReceived rate (frameBits cls sender kind payload) true) s = .next t ∧
      t.lkc.linkRate = some rate ∧ t.lkc.listening = false ∧ t.lkc.listenTimer = none ∧
      t.stc = { s.stc with joinTimer := some (ms 350) } ∧
      t.ptb = { s.ptb with presenceTimer := some (ms 100) } ∧
      t.lkc.updates.presence = some ⟨.presence s.grf.ownGroup s.blw.settings.role s.grf.registrationMode s.stl.slotUse
        s.grf.registration .joining s.stc.trouble, 0⟩ ∧
      t.lkc.rxBuffer = (if sender = 0 ∨ sender = 13 then [] else [⟨cls, sender, kind, payload⟩])

/-- FRAME_RECEIVED of other line activity: what does not begin with the preamble and the start bit after an idle line
is no frame and changes nothing, a frame once begun that fails a check counts RECEIVE ERRORS, and a rate that the receiver
does not read, or a state in which it reads nothing, changes nothing. That a broken frame counts while the station listens
is the model's reading (log entry 12, DEDUCED), and that a frame cut short is judged as if recessive bits followed is its
choice (log entry 4, DESIGN CHOICE). -/
def Obligations.BrokenFramesAreCounted : Prop :=
  ∀ (s : State) (rate : LinkRate) (bits : List Bool), s.resetLow = false →
    (∀ afterIdle, afterIdle = false ∨ bits.take 9 ≠ [true, false, true, false, true, false, true, false, false] →
      exec (.frameReceived rate bits afterIdle) s = .next s) ∧
    (∀ afterIdle, s.working = false ∨ (s.lkc.listening = false ∧ s.lkc.linkRate ≠ some rate) →
      exec (.frameReceived rate bits afterIdle) s = .next s) ∧
    (∀ r, s.working = true → s.lkc.listening = true ∨ s.lkc.linkRate = some rate → readFrame bits = some r →
      lengthOk r.frame.kind r.length = false ∨ r.crc ≠ (crc16 r.covered).toNat ∨ false ∈ r.endField →
      exec (.frameReceived rate bits true) s = .next { s with stc := { s.stc with counters := { s.stc.counters with
        receiveErrors := min (s.stc.counters.receiveErrors + 1) 65535 } } })

/-! ## Deliveries -/

/-- A delivery takes the oldest frame from the receive buffer and takes its evidence first: a peer of addresses 1..12
other than the own address is LIVE with 350 ms to its expiry and what its PRESENCE declares, and a frame from address 15
makes the engine LIVE with 2000 ms. A delivery command that names another kind of frame than the oldest does nothing (the
model's reading, log entry 5), and nothing is delivered outside JOINING, RUN and RELOADING. -/
def Obligations.DeliveriesTakeTheOldestFrameAndItsEvidence : Prop :=
  (∀ (s : State) (c : Instr) (f : RxFrame) (rest : List RxFrame), s.resetLow = false → s.working = true →
    s.lkc.rxBuffer = f :: rest → delivers c f = true →
    ∃ t, exec c s = .next t ∧ t.lkc.rxBuffer = rest ∧
      (1 ≤ f.sender ∧ f.sender ≤ 12 ∧ f.sender ≠ s.stl.ownAddress →
        let old := s.ptb.peer f.sender
        let group := (f.byte 0).toNat
        t.ptb.peers = s.ptb.peers.set (f.sender - 1) ⟨true, some (ms 350),
          if f.kind = kindPresence ∧ 1 ≤ group ∧ group ≤ 4 then
            some ⟨group, (f.byte 1).getLsbD 0, f.byte 2⟩
          else if old.live = true then old.declared else none⟩) ∧
      (¬(1 ≤ f.sender ∧ f.sender ≤ 12 ∧ f.sender ≠ s.stl.ownAddress) → t.ptb.peers = s.ptb.peers) ∧
      (f.sender = 15 → t.ofu.engine = .live ∧ t.ofu.livenessTimer = some (ms 2000) ∧
        t.stc.trouble.engineAbsent = false) ∧
      (f.sender ≠ 15 → t.ofu.engine = s.ofu.engine ∧ t.ofu.livenessTimer = s.ofu.livenessTimer)) ∧
  ∀ (s : State) (c : Instr), c ∈ [Instr.bellowsFrame, .registrationFrame, .presenceFrame, .untakenFrame,
      .engineOfferPart, .engineAlertExhausted, .engineAlertRestarted, .engineAlertPanic, .engineAlertNoFlag,
      .queryStatus, .queryPanic, .queryReload, .queryOtherAction] →
    (s.working = false ∨ s.lkc.rxBuffer = [] ∨
      ∃ f rest, s.lkc.rxBuffer = f :: rest ∧ delivers c f = false) → exec c s = .next s

/-- A frame that no block takes is evidence and nothing more: an UNTAKEN_FRAME, an ENGINE_ALERT_NO_FLAG, a BELLOWS,
REGISTRATION or PRESENCE frame of the service tool or the engine, and an ENGINE OFFER or ENGINE ALERT from another sender
than the engine. From a LIVE peer it renews the expiry timer, from the engine the liveness timer, and from the service
tool it changes nothing but the buffer; a first frame from an ABSENT peer makes it LIVE with its fields unknown. Which
command delivers such a frame is the model's reading (log entries 5 and 16, DEDUCED). -/
def Obligations.UntakenFramesAreEvidenceAlone : Prop :=
  ∀ (s : State) (c : Instr) (f : RxFrame) (rest : List RxFrame), s.resetLow = false → s.working = true →
    s.lkc.rxBuffer = f :: rest → delivers c f = true →
    c = .untakenFrame ∨ c = .engineAlertNoFlag ∨
      (c ∈ [Instr.bellowsFrame, .registrationFrame, .presenceFrame] ∧ 13 ≤ f.sender) ∨
      (c ∈ [Instr.engineOfferPart, .engineAlertExhausted, .engineAlertRestarted, .engineAlertPanic] ∧
        f.sender ≠ 15) →
    (f.sender = 14 → exec c s = .next { s with lkc := { s.lkc with rxBuffer := rest } }) ∧
    (f.sender = 15 → exec c s = .next { s with
      stc := { s.stc with trouble := { s.stc.trouble with engineAbsent := false } }
      ofu := { s.ofu with engine := .live, livenessTimer := some (ms 2000) }
      lkc := { s.lkc with rxBuffer := rest } }) ∧
    (1 ≤ f.sender → f.sender ≤ 12 → f.sender ≠ s.stl.ownAddress → (s.ptb.peer f.sender).live = true →
      exec c s = .next { s with
        ptb := { s.ptb with
          peers := s.ptb.peers.set (f.sender - 1) ⟨true, some (ms 350), (s.ptb.peer f.sender).declared⟩ }
        lkc := { s.lkc with rxBuffer := rest } }) ∧
    (1 ≤ f.sender → f.sender ≤ 12 → f.sender ≠ s.stl.ownAddress → (s.ptb.peer f.sender).live = false →
      ∃ t, exec c s = .next t ∧ t.LimitsCurrent ∧
        t.ptb = { s.ptb with peers := s.ptb.peers.set (f.sender - 1) ⟨true, some (ms 350), none⟩ } ∧
        t.ofu.table = s.ofu.table ∧ t.grf.registration = s.grf.registration ∧ t.grf.direction = s.grf.direction)

/-- BELLOWS_FRAME, judged after its evidence has been taken: a FOLLOW station accepts it from its followed source with
its own group. Without the LOST flag the station is FRESH with the frame's direction and level, its timers at 60 ms and
500 ms, and BELLOWS LOST leaves the trouble set; with it the source is lost. Any other BELLOWS frame is evidence alone. The
new direction and level are one group change: the section levels follow a change of L; a rise of L from 0 cancels the
breath hold and, in RUN, makes every ARMED record PLACED and places them in list order, or owes them while a request is
outstanding; then a turn is taken as a reversal, and then a fall, each held while a request is outstanding. -/
def Obligations.BellowsFramesFromTheSourceAreFollowed : Prop :=
  (∀ (s : State) (f : RxFrame) (rest : List RxFrame), s.resetLow = false → s.working = true →
    s.lkc.rxBuffer = f :: rest → f.kind = kindBellows → 1 ≤ f.sender → f.sender ≤ 12 →
    let s' := ({ s with lkc := { s.lkc with rxBuffer := rest } } : State).peerEvidence f
    let accepted := s'.grf.sourceMode = .follow ∧ s'.grf.source = some f.sender ∧ (f.byte 0).toNat = s'.grf.ownGroup
    let lost := (f.byte 1).getLsbD 1
    ∃ t, exec .bellowsFrame s = .next t ∧
      (¬accepted → t = s') ∧
      (accepted → lost = false →
        t.stc.trouble = { s'.stc.trouble with bellowsLost := false } ∧
        t.grf = { s'.grf with
          freshness := .fresh
          staleTimer := some (ms 60)
          lostTimer := some (ms 500)
          direction := if (f.byte 1).getLsbD 0 = true then .pull else .push
          level := (f.byte 2).toNat % 128 } ∧
        t = ({ s' with
          stc := { s'.stc with trouble := t.stc.trouble }
          grf := { s'.grf with freshness := .fresh, staleTimer := some (ms 60), lostTimer := some (ms 500) } } :
            State).setGroup t.grf.direction t.grf.level) ∧
      (accepted → lost = true →
        t.stc.trouble = { s'.stc.trouble with bellowsLost := true } ∧
        t.grf = { s'.grf with freshness := .lost, staleTimer := none, lostTimer := none, level := 0 } ∧
        t = ({ s' with
          stc := { s'.stc with trouble := t.stc.trouble }
          grf := { s'.grf with freshness := .lost, staleTimer := none, lostTimer := none } } : State).setGroup
            s'.grf.direction 0) ∧
      State.NotesOnly { s' with stc := { s'.stc with trouble := t.stc.trouble }, grf := t.grf } t) ∧
  (∀ (s : State) (d : Direction) (level : Nat),
    let u : State := { s with grf := { s.grf with direction := d, level := level } }
    let v := if level = s.grf.level then u else u.recomputeLevels
    (s.playing = false → s.setGroup d level = v) ∧
    (s.playing = true →
      let w := if s.grf.level = 0 ∧ level ≠ 0 then v.levelRise else v
      let x : State := if s.grf.direction = d then w
        else if w.plu.suspended.isSome = true then
          { w with plu := { w.plu with heldEvents := w.plu.heldEvents ++ [.turn] } }
        else w.reversal
      s.setGroup d level =
        if s.grf.level = 0 ∨ level ≠ 0 then x
        else if x.plu.suspended.isSome = true then
          { x with plu := { x.plu with heldEvents := x.plu.heldEvents ++ [.fall] } }
        else x.takeFall)) ∧
  ∀ (s : State),
    (let calm : State := { s with plu := { s.plu with
      breathTimer := none
      heldEvents := s.plu.heldEvents.filter (· ≠ .breathExpiry) } }
     let owed := s.plu.owed ++ (s.plu.held.filter (·.state = .armed)).map (·.contact)
     let risen : State := { calm with plu := { calm.plu with
      held := s.plu.held.map fun r => if r.state = .armed then { r with state := .placed } else r
      owed := owed } }
     (s.stc.station ≠ .run → s.levelRise = calm) ∧
     (s.stc.station = .run →
       s.levelRise = if s.plu.suspended.isSome = true then risen else State.placeAll owed risen)) ∧
    State.placeAll [] s = { s with plu := { s.plu with owed := [] } } ∧
    ∀ (c : Nat) (cs : List Nat),
      let u := ({ s with plu := { s.plu with owed := cs } } : State).placeRecord c
      State.placeAll (c :: cs) s = if u.plu.suspended.isSome = true then u else State.placeAll cs u

/-- REGISTRATION_FRAME: in mode SHARED a frame of the own group makes its number the current registration, and the
section levels follow; in mode OWN and from another group it is ignored. No REGISTRATION entry is written. A slot with
notes whose level has moved by the threshold from the value last sent, or stands at 0 or 127 and differs from it, gets its
LEVEL entry written and its last-sent value set, and so does one whose entry a restart report wrote at this moment and
whose level differs from it; every other slot keeps both. A slot's count that rises from 0 sets its last-sent value and
answers a pending removal with a write; one that falls to 0 removes its LEVEL entry, or holds the removal against the
attempt in flight, which leaves a newer value written during that attempt to its end. How long a recomputation falls together with a restart report, so that it writes a level moved by
less than the threshold (R103), is the model's choice (log entry 23, DESIGN CHOICE). -/
def Obligations.RegistrationFramesAreAdoptedInTheGroup : Prop :=
  (∀ (s : State) (f : RxFrame) (rest : List RxFrame), s.resetLow = false → s.working = true →
    s.lkc.rxBuffer = f :: rest → f.kind = kindRegistration →
    let s' := ({ s with lkc := { s.lkc with rxBuffer := rest } } : State).peerEvidence f
    let number := (f.byte 1).toNat % 16
    let adopted := 1 ≤ f.sender ∧ f.sender ≤ 12 ∧ s.grf.registrationMode = .shared ∧ (f.byte 0).toNat = s.grf.ownGroup
    ∃ t, exec .registrationFrame s = .next t ∧ t.lkc.updates.registration = s.lkc.updates.registration ∧
      t.grf.registrationMode = s.grf.registrationMode ∧
      (adopted → t.grf.registration = number ∧ t.SectionLevelsCurrent ∧
        t = { s' with
          grf := { s'.grf with registration := number }
          lvu := { s'.lvu with sectionLevel := t.lvu.sectionLevel, lastSent := t.lvu.lastSent }
          lkc := { s'.lkc with
            updates := { s'.lkc.updates with levels := t.lkc.updates.levels }
            tx := t.lkc.tx } } ∧
        ∀ k : Slot,
          let reg := s.mst.registration number
          let level := t.lvu.sectionLevel.get k
          let last := s'.lvu.lastSent.get k
          let together := s'.lvu.justRestarted.get k = true
          let due := 0 < s'.lvu.slotCount.get k ∧
            ((¬together ∧ s'.lvu.threshold ≤ max level last - min level last) ∨
              ((together ∨ level = 0 ∨ level = 127) ∧ level ≠ last))
          level = (max 0 (min 127 ((((s'.grf.level * reg.gain.get k + 32) / 64 : Nat) : Int) + reg.offset.get k))).toNat ∧
          (due → t.lkc.updates.levels.get k = some ⟨.level k level, 0⟩ ∧ t.lvu.lastSent.get k = level) ∧
          (¬due → t.lkc.updates.levels.get k = s'.lkc.updates.levels.get k ∧ t.lvu.lastSent.get k = last)) ∧
      (¬adopted → t.grf.registration = s.grf.registration ∧ (f.sender < 14 → t = s'))) ∧
  ∀ (s : State) (k : Slot),
    let old := s.lvu.slotCount.get k
    let new := s.nrs.count k
    let level := s.lvu.sectionLevel.get k
    let counted := { s.lvu with slotCount := s.lvu.slotCount.set k new }
    let t := s.reportCount k
    (old = 0 → 0 < new →
      t.lvu = { counted with
        lastSent := s.lvu.lastSent.set k level
        removalPending := s.lvu.removalPending.set k false
        justRestarted := s.lvu.justRestarted.set k false } ∧
      t = { s with lvu := t.lvu, lkc := { s.lkc with
        updates := if s.lvu.removalPending.get k = true then
          { s.lkc.updates with levels := s.lkc.updates.levels.set k (some ⟨.level k level, 0⟩) } else s.lkc.updates
        tx := if s.lvu.removalPending.get k = true then s.lkc.tx.map fun a =>
            if a.source = .table (.level k) then { a with rewritten := true, withdraw := false } else a
          else s.lkc.tx } }) ∧
    (0 < old → new = 0 →
      (s.lkc.updates.levels.get k = none → t = { s with lvu := counted }) ∧
      (s.lkc.updates.levels.get k ≠ none → s.keyInFlight (.level k) = false →
        t = { s with lvu := counted, lkc := { s.lkc with
          updates := { s.lkc.updates with levels := s.lkc.updates.levels.set k none } } }) ∧
      (s.lkc.updates.levels.get k ≠ none → s.keyInFlight (.level k) = true →
        t = { s with
          lvu := { counted with removalPending := s.lvu.removalPending.set k true }
          lkc := { s.lkc with tx := s.lkc.tx.map fun a => { a with withdraw := true } } })) ∧
    ((old = 0 ↔ new = 0) → t = { s with lvu := counted })

/-- PRESENCE_FRAME of a peer with a group of 1..4: where it changes nothing known of a LIVE peer it only renews the
expiry timer; otherwise the peer is LIVE with the declared values, a FOLLOW station finds its lowest-address candidate
afresh, the shares and limits are reckoned anew, and the slots above their limit are trimmed. That the Group Follower takes
the report first is the model's choice (log entry 18). -/
def Obligations.PresenceFramesDeclareThePeer : Prop :=
  ∀ (s : State) (f : RxFrame) (rest : List RxFrame), s.resetLow = false → s.working = true →
    s.lkc.rxBuffer = f :: rest → f.kind = kindPresence → 1 ≤ f.sender → f.sender ≤ 12 →
    f.sender ≠ s.stl.ownAddress → 1 ≤ (f.byte 0).toNat → (f.byte 0).toNat ≤ 4 →
    let d : Declaration := ⟨(f.byte 0).toNat, (f.byte 1).getLsbD 0, f.byte 2⟩
    let old := s.ptb.peer f.sender
    let ptb := { s.ptb with peers := s.ptb.peers.set (f.sender - 1) ⟨true, some (ms 350), some d⟩ }
    (old.live = true → old.declared = some d →
      exec .presenceFrame s = .next { s with ptb := ptb, lkc := { s.lkc with rxBuffer := rest } }) ∧
    (old.live = false ∨ old.declared ≠ some d →
      ∃ t, exec .presenceFrame s = .next t ∧ t.ptb = ptb ∧ t.LimitsCurrent ∧
        (s.grf.sourceMode = .localUnit → t.grf = s.grf) ∧
        (s.grf.sourceMode = .follow → t.grf.source = t.lowestCandidate ∧
          (t.grf.source.isSome = true → t.grf = { s.grf with source := t.grf.source })) ∧
        t.ofu.table = s.ofu.table ∧ t.ofu.cap = s.ofu.cap ∧
        let v := ({ s with ptb := ptb, lkc := { s.lkc with rxBuffer := rest } } : State).followReport
        t = ({ v with ofu := { v.ofu with share := t.ofu.share, limit := t.ofu.limit } } : State).trimAll)

/-- ENGINE_OFFER_PART from address 15: a part whose numbers lie outside 1 ≤ i ≤ n ≤ 4 is discarded; any other is stored,
a new set number or part count beginning a new collection; a complete set is adopted whole, in order of part number: the
slot table is replaced, every cap lifted, the buffer emptied, the limits follow, and the slots above their limit are
trimmed. A trim goes through the slots in ascending order, and ends the oldest STARTING and SOUNDING entries of each, as
many as stand above its limit, oldest first, as victims: with LOST where the slot is undetected and with STOLEN otherwise.
From another sender nothing is taken. -/
def Obligations.OfferPartsAreAssembledAndAdopted : Prop :=
  (∀ (s : State) (f : RxFrame) (rest : List RxFrame), s.resetLow = false → s.working = true →
    s.lkc.rxBuffer = f :: rest → f.kind = kindOffer →
    let number := (f.byte 0).toNat
    let i := (f.byte 1).toNat / 16
    let n := (f.byte 1).toNat % 16
    let fits := 1 ≤ i ∧ i ≤ n ∧ n ≤ 4
    let before : List (Option (List Offer)) :=
      match s.ofu.assembly with
      | some a => if a.setNumber = number ∧ a.parts.length = n then a.parts else List.replicate n none
      | none => List.replicate n none
    let parts := before.set (i - 1) (some (offersOf (f.payload.drop 2)))
    ∃ t, exec .engineOfferPart s = .next t ∧
      (f.sender ≠ 15 → t.ofu.assembly = s.ofu.assembly ∧ t.ofu.table = s.ofu.table ∧ t.ofu.cap = s.ofu.cap) ∧
      (f.sender = 15 → fits → none ∈ parts → t.ofu.assembly = some ⟨number, parts⟩ ∧ t.ofu.table = s.ofu.table ∧
        t.ofu.cap = s.ofu.cap ∧ t.nrs = s.nrs) ∧
      (f.sender = 15 → fits → none ∉ parts →
        t.ofu.table = tableOf (parts.flatMap fun p => p.getD []) ∧ t.ofu.cap = .all none ∧ t.ofu.assembly = none ∧
        t.LimitsCurrent ∧ (s.nrs.Lawful → ∀ k : Slot, t.nrs.count k ≤ t.ofu.limit.get k) ∧
        let heard := ({ s with lkc := { s.lkc with rxBuffer := rest } } : State).engineEvidence
        t = ({ heard with ofu := { heard.ofu with
          table := t.ofu.table
          assembly := none
          cap := .all none
          share := t.ofu.share
          limit := t.ofu.limit } } : State).trimAll) ∧
      (f.sender = 15 → ¬fits → (∀ a, s.ofu.assembly = some a → none ∈ a.parts) →
        t.ofu.assembly = s.ofu.assembly ∧ t.ofu.table = s.ofu.table ∧ t.ofu.cap = s.ofu.cap ∧ t.nrs = s.nrs)) ∧
  (∀ (s : State), s.trimAll = ([0, 1, 2, 3, 4, 5, 6, 7] : List Slot).foldl State.trimSlot s) ∧
  ∀ (s : State) (k : Slot), s.nrs.Lawful →
    let standing := s.nrs.roster.filter fun e => e.slot = k ∧ e.state ≠ .ending
    let victims := standing.take (standing.length - s.ofu.limit.get k)
    s.trimSlot k = victims.foldl (fun (t : State) v =>
      t.endVictim v.tag (if s.ofu.table.get k = none then .lost else .stolen)) s

/-- ENGINE_ALERT_EXHAUSTED from address 15, whatever its other flags: each slot of the mask is capped at its count of
STARTING and SOUNDING entries of the moment, the other caps stand, ENGINE EXHAUSTIONS counts once, and the limits follow;
from another sender nothing is taken. An alert with all three flags acts as EXHAUSTED, then RESTARTED, then PANIC, each
as an alert of that one flag does. That any command of one of its flags delivers it is the model's reading (log entry 5,
DEDUCED). -/
def Obligations.ExhaustionCapsSlotsAndFlagsActInOrder : Prop :=
  (∀ (s : State) (f : RxFrame) (rest : List RxFrame), s.resetLow = false → s.working = true →
    s.lkc.rxBuffer = f :: rest → f.kind = kindAlert → f.alertFlag 0 = true →
    ∃ t, exec .engineAlertExhausted s = .next t ∧ t.ofu.table = s.ofu.table ∧ t.ofu.assembly = s.ofu.assembly ∧
      (f.sender = 15 → t.LimitsCurrent ∧
        t.stc.counters.engineExhaustions = min (s.stc.counters.engineExhaustions + 1) 65535 ∧
        ∀ k : Slot, t.ofu.cap.get k = if SlotMask.has (f.byte 1) k = true then some (s.nrs.count k)
          else s.ofu.cap.get k) ∧
      (f.sender ≠ 15 → t.ofu.cap = s.ofu.cap ∧
        t.stc.counters.engineExhaustions = s.stc.counters.engineExhaustions)) ∧
  ∀ (s : State) (mask : Byte) (rest : List RxFrame) (c : Instr), s.resetLow = false → s.working = true →
    c ∈ [Instr.engineAlertExhausted, .engineAlertRestarted, .engineAlertPanic] →
    let alert := fun flags : Byte => RxFrame.mk 2 15 kindAlert [flags, mask]
    let heard := ({ s with lkc := { s.lkc with rxBuffer := rest } } : State).engineEvidence
    exec c { s with lkc := { s.lkc with rxBuffer := alert 7 :: rest } } =
      .next (((heard.takeAlert (alert 1)).takeAlert (alert 2)).takeAlert (alert 4))

/-- ENGINE_ALERT_RESTARTED from address 15, no other flag set: every SOUNDING entry with no frame queued gets a
REFRESH-START with the present velocity, oldest first at the end of the note queue, and every slot with a count above 0
gets its LEVEL entry written and its last-sent value set; the Offer Unit's values stand. Where a restart report and a
recomputation from any group level and registration fall together, in either order every slot with a count above 0 ends
with its entry written at the present section level (R103). That they fall together until half a millisecond passes or an
attempt begins is the model's choice (log entry 23, DESIGN CHOICE). -/
def Obligations.RestartRefreshesNotesAndLevels : Prop :=
  (∀ (s : State) (f : RxFrame) (rest : List RxFrame), s.resetLow = false → s.working = true →
    s.lkc.rxBuffer = f :: rest → f.kind = kindAlert → f.sender = 15 → f.alertFlag 0 = false → f.alertFlag 1 = true →
    f.alertFlag 2 = false → s.nrs.Lawful →
    let due := fun e : RosterEntry => e.state = .sounding ∧ e.queued = .noFrame
    let velocity := fun e : RosterEntry =>
      if e.articulation = .swell then 1 else max 1 (min 127 (s.lvu.sectionLevel.get e.slot))
    ∃ t, exec .engineAlertRestarted s = .next t ∧
      t.nrs = { s.nrs with
        roster := s.nrs.roster.map fun e => if due e then { e with queued := .refreshStart } else e } ∧
      t.lkc.noteQueue = s.lkc.noteQueue ++ (s.nrs.roster.filter fun e => due e).map (fun e =>
        ⟨.refreshStart e.tag e.slot e.pitch (velocity e), 0⟩) ∧
      (∀ k : Slot, 0 < s.lvu.slotCount.get k →
        t.lkc.updates.levels.get k = some ⟨.level k (s.lvu.sectionLevel.get k), 0⟩ ∧
          t.lvu.lastSent.get k = s.lvu.sectionLevel.get k ∧ t.lvu.justRestarted.get k = true) ∧
      (∀ k : Slot, s.lvu.slotCount.get k = 0 →
        t.lkc.updates.levels.get k = s.lkc.updates.levels.get k ∧ t.lvu.lastSent.get k = s.lvu.lastSent.get k ∧
          t.lvu.justRestarted.get k = s.lvu.justRestarted.get k) ∧
      t.lvu = { s.lvu with lastSent := t.lvu.lastSent, justRestarted := t.lvu.justRestarted } ∧
      t.ofu = { s.ofu with engine := .live, livenessTimer := some (ms 2000) } ∧
      State.NotesOnly { s with
        stc := { s.stc with trouble := { s.stc.trouble with engineAbsent := false } }
        ofu := t.ofu
        lkc := { s.lkc with rxBuffer := rest } } t) ∧
  ∀ (s : State) (grf : GroupFollower),
    let written := fun t : State => t.SectionLevelsCurrent ∧
      ∀ k : Slot, 0 < s.lvu.slotCount.get k →
        t.lkc.updates.levels.get k = some ⟨.level k (t.lvu.sectionLevel.get k), 0⟩ ∧
        t.lvu.lastSent.get k = t.lvu.sectionLevel.get k
    written (s.restartLevels.setGrf grf).recomputeLevels ∧ written (s.setGrf grf).recomputeLevels.restartLevels

/-- A panic in RUN or RELOADING, by ENGINE_ALERT_PANIC from address 15 or by QUERY_PANIC to this station, silences it:
every held record is SPENT with no tags, no entry is STARTING or SOUNDING, the breath timer is idle, no placement is owed
and a waiting request is owed UNPLACED. Where the frame's evidence concerns no peer, nothing else of the Placement Unit
changes, and the group's direction and level and the registration stand. In it every entry that has not ended is ended with
PANIC, in roster order: a START not in flight leaves the queue with its entry, a START or REFRESH-START in flight gets an
owed end, a REFRESH-START still queued gives its place to the NOTE END, and every other NOTE END goes to the end of the
queue; entries already ENDING keep what they have, and nothing is counted. -/
def Obligations.PanicSilencesTheStation : Prop :=
  (∀ (s : State) (c : Instr) (f : RxFrame) (rest : List RxFrame), s.resetLow = false → s.playing = true →
    s.lkc.rxBuffer = f :: rest → s.nrs.Lawful → delivers c f = true →
    (c = .engineAlertPanic ∧ f.sender = 15) ∨
      (c = .queryPanic ∧ ((f.byte 0).toNat = 0 ∨ (f.byte 0).toNat = s.stl.ownAddress)) →
    ∃ t, exec c s = .next t ∧ (∀ r ∈ t.plu.held, r.state = .spent ∧ r.tags = []) ∧
      t.plu.held.map (·.contact) = s.plu.held.map (·.contact) ∧ t.plu.breathTimer = none ∧ t.plu.owed = [] ∧
      (∀ e ∈ t.nrs.roster, e.state = .ending) ∧ t.nrs.answerOwed = t.nrs.waiting.isSome ∧
      t.stc.station = s.stc.station ∧
      (13 ≤ f.sender →
        t.plu = { s.plu with
          held := s.plu.held.map fun r => { r with state := .spent, tags := [] }
          breathTimer := none
          owed := []
          heldEvents := s.plu.heldEvents.filter (· ≠ .breathExpiry) } ∧
        t.grf = s.grf ∧ t.nrs.waiting = s.nrs.waiting) ∧
      (let heard : State := { s with lkc := { s.lkc with rxBuffer := rest } }
       let u := if f.sender = 15 then heard.engineEvidence else heard.peerEvidence f
       (c = .engineAlertPanic → f.alertFlag 0 = false → f.alertFlag 1 = false → t = u.panic) ∧
         (c = .queryPanic → t = { u.panic with lkc := { u.panic.lkc with
           updates := { u.panic.lkc.updates with
             status := some ⟨.status .ack s.stc.station u.panic.stc.counters, 0⟩ }
           tx := u.panic.lkc.tx.map fun a =>
             if a.source = .table .status then { a with rewritten := true, withdraw := false } else a } }))) ∧
  ∀ (s : State), s.playing = true → s.nrs.Lawful →
    let t := s.panic
    let inFlight := fun e : RosterEntry => s.tagInFlight e.tag = true
    let withdrawn := s.nrs.roster.filter fun e => e.state = .starting ∧ ¬inFlight e
    let replaced := s.nrs.roster.filter fun e => e.state = .sounding ∧ e.queued = .refreshStart ∧ ¬inFlight e
    let owed := s.nrs.roster.filter fun e =>
      inFlight e ∧ (e.state = .starting ∨ (e.state = .sounding ∧ e.queued = .refreshStart))
    let stop := fun e : RosterEntry => QueueItem.mk (.stop e.tag .panic) 0
    State.NotesOnly s t ∧ t.stc = s.stc ∧
      t.plu = { s.plu with
        held := s.plu.held.map fun r => { r with state := .spent, tags := [] }
        breathTimer := none
        owed := []
        heldEvents := s.plu.heldEvents.filter (· ≠ .breathExpiry) } ∧
      t.nrs = { s.nrs with
        roster := (s.nrs.roster.filter (· ∉ withdrawn)).map fun e =>
          if e.state = .ending then e
          else { e with
            state := .ending
            queued := if e ∈ owed then e.queued else .stop
            endArticulation := some .panic
            deadline := none }
        answerOwed := s.nrs.waiting.isSome } ∧
      t.lkc.noteQueue =
        (s.lkc.noteQueue.filter fun q => ∀ e ∈ withdrawn, q.frame.tag? ≠ some e.tag).map (fun q =>
          ((replaced.find? fun e => q.frame.tag? = some e.tag).map stop).getD q) ++
        (s.nrs.roster.filter fun e => e.state = .sounding ∧ e.queued ≠ .refreshStart).map stop ∧
      (s.queueInFlight = true →
        t.lkc.tx = s.lkc.tx.map fun a => if owed = [] then a else { a with withdraw := true })

/-- A QUERY to this station or to all is answered in the STATUS entry: STATUS and PANIC with ACK and an unknown action
with NAK, carrying the station state and the counters as they stand after the query's effect; a QUERY to another address
is evidence alone. -/
def Obligations.QueriesAreAnsweredInTheStatusEntry : Prop :=
  ∀ (s : State) (c : Instr) (f : RxFrame) (rest : List RxFrame), s.resetLow = false → s.working = true →
    s.lkc.rxBuffer = f :: rest → delivers c f = true →
    c = .queryStatus ∨ c = .queryPanic ∨ c = .queryOtherAction ∨ c = .queryReload →
    ((f.byte 0).toNat = 0 ∨ (f.byte 0).toNat = s.stl.ownAddress → c ≠ .queryReload →
      ∃ t, exec c s = .next t ∧ t.stc.station = s.stc.station ∧
        t.lkc.updates.status =
          some ⟨.status (if c = .queryOtherAction then .nak else .ack) t.stc.station t.stc.counters, 0⟩) ∧
    ((f.byte 0).toNat ≠ 0 → (f.byte 0).toNat ≠ s.stl.ownAddress →
      ∃ t, exec c s = .next t ∧ t.lkc.updates.status = s.lkc.updates.status ∧ t.stc.station = s.stc.station ∧
        (let heard : State := { s with lkc := { s.lkc with rxBuffer := rest } }
         t = if f.sender = 15 then heard.engineEvidence else heard.peerEvidence f) ∧
        (f.sender = 14 → t = { s with lkc := { s.lkc with rxBuffer := rest } }))

/-- QUERY_RELOAD to this station or to all: in JOINING and RUN it is answered ACK and RELOADING begins, with the scanner
and the Bellows Unit stopped, the join timer stopped, every record SPENT, STATUS and PRESENCE written with RELOADING and
the drain timer loaded with 100 ms; in RELOADING it is answered BUSY and the reload already begun goes on. That the
Bellows Unit, stopped, keeps its missed-sample count and its capture is the model's choice (log entry 17), and so is that a
reload ordered by address 15 writes its PRESENCE after the engine's evidence is taken (log entry 25). -/
def Obligations.ReloadQueryBeginsReloading : Prop :=
  ∀ (s : State) (f : RxFrame) (rest : List RxFrame), s.resetLow = false → s.working = true →
    s.lkc.rxBuffer = f :: rest → delivers .queryReload f = true →
    (f.byte 0).toNat = 0 ∨ (f.byte 0).toNat = s.stl.ownAddress →
    ∃ t, exec .queryReload s = .next t ∧ t.stc.station = .reloading ∧
      (s.stc.station ≠ .reloading →
        t.stc.joinTimer = none ∧ t.stc.drainTimer = some (ms 100) ∧ t.runPin = false ∧
        t.msc = { s.msc with scanTimer := none } ∧
        t.blw = { s.blw with phase := .off, outstanding := false, sampleTimer := none, heartbeat := none } ∧
        (∀ r ∈ t.plu.held, r.state = .spent ∧ r.tags = []) ∧ (s.nrs.Lawful → ∀ e ∈ t.nrs.roster, e.state = .ending) ∧
        t.ptb.presenceTimer = some (ms 100) ∧
        t.lkc.updates.status = some ⟨.status .ack .reloading t.stc.counters, 0⟩ ∧
        t.lkc.updates.presence = some ⟨.presence t.grf.ownGroup t.blw.settings.role t.grf.registrationMode
          t.stl.slotUse t.grf.registration .reloading t.stc.trouble, 0⟩) ∧
      (s.stc.station = .reloading → t.stc.drainTimer = s.stc.drainTimer ∧
        t.lkc.updates.status = some ⟨.status .busy .reloading t.stc.counters, 0⟩ ∧
        t.lkc.updates.presence = s.lkc.updates.presence)

/-! ## Laws that every step keeps -/

/-- Every step keeps the bounds: the counters within 0..65535; at most 24 held records, of distinct contacts; at most 4
frames in the receive buffer, update-table entries of their own keys, no waiting frame with 16 failures, and an attempt
that drives the bits of its frame. -/
def Obligations.StepsKeepTheBounds : Prop :=
  ∀ (s t : State), step s = .next t →
    (s.CountersInRange → t.CountersInRange) ∧ (s.HeldListLawful → t.HeldListLawful) ∧ (s.LinkLawful → t.LinkLawful)

/-- Every step keeps the roster lawful (at most 32 entries, distinct tags, distinct slots and pitches) and no slot above
its limit. -/
def Obligations.StepsKeepEverySlotWithinItsLimit : Prop :=
  ∀ (s t : State), step s = .next t → s.WithinLimits → t.WithinLimits

/-- Every step keeps what is computed from other values: the shares and limits of the slot table, the caps and the
peers; the section levels of the group level and the registration; and every level within 0..127. -/
def Obligations.StepsKeepDerivedValuesCurrent : Prop :=
  ∀ (s t : State), step s = .next t →
    (s.LimitsCurrent → t.LimitsCurrent) ∧ (s.SectionLevelsCurrent → t.SectionLevelsCurrent) ∧
      (s.LevelsInRange → t.LevelsInRange)

/-- Every step keeps the Peer Table lawful: twelve records, LIVE exactly while their timers run, none for the own
address. Every step keeps the Placement Unit suspended exactly while a request waits, with nothing owed or held
otherwise. -/
def Obligations.StepsKeepPeersAndSuspensionLawful : Prop :=
  ∀ (s t : State), step s = .next t →
    (s.PeersLawful → t.PeersLawful) ∧ (s.SuspensionLawful → t.SuspensionLawful)

/-- Every step keeps the station state, the fault reason and the timers in agreement. -/
def Obligations.StepsKeepTimersFittingTheStation : Prop :=
  ∀ (s t : State), step s = .next t → s.TimersFitStation → t.TimersFitStation

/-- Every step keeps the trouble set true to its causes while the station works. -/
def Obligations.StepsKeepTheTroubleSetTrue : Prop :=
  ∀ (s t : State), step s = .next t → s.TroubleTrue → t.TroubleTrue

/-- Every step keeps the roster, the note queue, the attempt in flight and the slot counts in agreement: at most one BOW
and one frame for each entry in the queue, every frame's entry saying what it is, an END only for an ENDING entry, and an
owed end only while a START or REFRESH-START is in flight with its withdrawal held. -/
def Obligations.StepsKeepNotesAndQueueInAgreement : Prop :=
  ∀ (s t : State), step s = .next t → s.NotesLawful → t.NotesLawful
end

