-- ==== Sys2Proof/Laws/Bits.lean ====
section
/-! SUPPORT. Numbers, bits, bytes and slot masks: ranges of the clamped values, bits read back as the numbers they
spell, and the CRC of bytes as the CRC of their bits. -/

namespace Sys2Proof.Machine

/-! ## Ranges -/

theorem clampInt_mem {lo hi : Int} (h : lo ≤ hi) (x : Int) : lo ≤ clampInt lo hi x ∧ clampInt lo hi x ≤ hi := by
  unfold clampInt
  split
  · omega
  · split <;> omega

theorem clampNat_mem {lo hi : Nat} (h : lo ≤ hi) (x : Nat) : lo ≤ clampNat lo hi x ∧ clampNat lo hi x ≤ hi := by
  unfold clampNat
  split
  · omega
  · split <;> omega

theorem clampInt_of_mem {lo hi x : Int} (h1 : lo ≤ x) (h2 : x ≤ hi) : clampInt lo hi x = x := by
  unfold clampInt
  split
  · omega
  · split <;> omega

/-- The ceiling of n / d: the least whole number q with n ≤ q · d. -/
theorem ceilDiv_spec (n : Int) {d : Nat} (h : 0 < d) : n ≤ ceilDiv n d * d ∧ (ceilDiv n d - 1) * d < n := by
  have hd : (0 : Int) < d := by omega
  have h1 := Int.mul_ediv_add_emod (n + d - 1) d
  have h2 := Int.emod_nonneg (n + d - 1) (by omega : (d : Int) ≠ 0)
  have h3 := Int.emod_lt_of_pos (n + d - 1) hd
  have h4 : ceilDiv n d * d = d * ((n + d - 1) / d) := by
    unfold ceilDiv
    rw [Int.mul_comm]
  have h5 : (ceilDiv n d - 1) * d = d * ((n + d - 1) / d) - d := by
    unfold ceilDiv
    rw [Int.sub_mul, Int.one_mul, Int.mul_comm]
  omega

theorem sectionLevel_le (level gain : Nat) (offset : Int) : sectionLevel level gain offset ≤ 127 := by
  have h := clampInt_mem (lo := 0) (hi := 127) (by omega) (((level * gain + 32) / 64 : Nat) + offset)
  unfold sectionLevel
  omega

/-! ## Slot masks -/

@[simp] theorem maskOf_has (p : Slot → Bool) (k : Slot) : SlotMask.has (maskOf p) k = p k := by
  have h : ∀ b0 b1 b2 b3 b4 b5 b6 b7 : Bool, ∀ k : Slot,
      SlotMask.has (maskOf fun j => [b0, b1, b2, b3, b4, b5, b6, b7].getD j.val false) k =
        [b0, b1, b2, b3, b4, b5, b6, b7].getD k.val false := by
    decide +kernel
  have hp : p = fun j : Slot => [p 0, p 1, p 2, p 3, p 4, p 5, p 6, p 7].getD j.val false := by
    funext j
    revert j
    rw [Fin.forall_fin_succ]
    simp [Fin.forall_fin_succ]
  rw [hp]
  exact h _ _ _ _ _ _ _ _ k

/-! ## Bits -/

@[simp] theorem natToBits_length (w n : Nat) : (natToBits w n).length = w := by
  induction w with
  | zero => rfl
  | succ w ih => simp [natToBits, ih]

@[simp] theorem bytesToBits_length (bs : List Byte) : (bytesToBits bs).length = 8 * bs.length := by
  induction bs with
  | nil => rfl
  | cons b bs ih =>
    simp only [bytesToBits, List.length_append, natToBits_length, ih, List.length_cons]
    omega

theorem bitsToNat_foldl (bits : List Bool) (a : Nat) :
    bits.foldl (fun a b => 2 * a + b.toNat) a = a * 2 ^ bits.length + bitsToNat bits := by
  induction bits generalizing a with
  | nil => simp [bitsToNat]
  | cons b bits ih =>
    simp only [bitsToNat, List.foldl_cons, List.length_cons] at *
    rw [ih, ih (2 * 0 + b.toNat)]
    have : 2 ^ (bits.length + 1) = 2 * 2 ^ bits.length := by rw [Nat.pow_succ, Nat.mul_comm]
    rw [this, Nat.add_mul]
    have e : a * (2 * 2 ^ bits.length) = 2 * a * 2 ^ bits.length := by
      rw [← Nat.mul_assoc, Nat.mul_comm a 2]
    rw [e, Nat.mul_zero, Nat.zero_add, Nat.add_assoc]

/-- The bits of a number read back as the number, as far as the width goes. -/
theorem bitsToNat_natToBits (w n : Nat) : bitsToNat (natToBits w n) = n % 2 ^ w := by
  induction w with
  | zero => simp [natToBits, bitsToNat, Nat.mod_one]
  | succ w ih =>
    have h := bitsToNat_foldl (natToBits w n) (n.testBit w).toNat
    have e : bitsToNat (natToBits (w + 1) n) = (n.testBit w).toNat * 2 ^ w + n % 2 ^ w := by
      rw [natToBits]
      unfold bitsToNat
      rw [List.foldl_cons]
      simp only [Nat.mul_zero, Nat.zero_add]
      rw [h, natToBits_length, ih]
    rw [e, Nat.mod_pow_succ, Nat.toNat_testBit, Nat.mul_comm, Nat.add_comm]

theorem bitsToNat_natToBits_of_lt {w n : Nat} (h : n < 2 ^ w) : bitsToNat (natToBits w n) = n := by
  rw [bitsToNat_natToBits, Nat.mod_eq_of_lt h]

/-- The bytes that the bits of bytes spell are those bytes, whatever follows them. -/
theorem bitsToBytes_bytesToBits (bs : List Byte) (more : List Bool) :
    bitsToBytes bs.length (bytesToBits bs ++ more) = bs := by
  induction bs with
  | nil => rfl
  | cons b bs ih =>
    have ht : (bytesToBits (b :: bs) ++ more).take 8 = natToBits 8 b.toNat := by
      simp [bytesToBits, List.append_assoc]
    have hd : (bytesToBits (b :: bs) ++ more).drop 8 = bytesToBits bs ++ more := by
      simp [bytesToBits, List.append_assoc]
    rw [List.length_cons, bitsToBytes, ht, hd, ih, bitsToNat_natToBits_of_lt b.isLt]
    simp

/-! ## The CRC -/

theorem crcFrom_append (r : BitVec 16) (a b : List Bool) : crcFrom r (a ++ b) = crcFrom (crcFrom r a) b := by
  simp [crcFrom]

theorem crcBytesFrom_eq (r : BitVec 16) (bs : List Byte) : crcBytesFrom r bs = crcFrom r (bytesToBits bs) := by
  induction bs generalizing r with
  | nil => rfl
  | cons b bs ih => rw [crcBytesFrom, ih, bytesToBits, crcFrom_append]

theorem crcBytesFrom_append (r : BitVec 16) (a b : List Byte) :
    crcBytesFrom r (a ++ b) = crcBytesFrom (crcBytesFrom r a) b := by
  induction a generalizing r with
  | nil => rfl
  | cons x a ih => simp [crcBytesFrom, ih]

/-- The image's prefix is the image's first bytes where it has as many. -/
theorem imagePrefix_of_le {n : Nat} {img : List Byte} (h : n ≤ img.length) : imagePrefix n img = img.take n := by
  induction n generalizing img with
  | zero => rfl
  | succ n ih =>
    cases img with
    | nil => simp at h
    | cons b bs => simp [imagePrefix, ih (by simpa using h)]

/-! ## Frames -/

/-- The length of a frame on the line: 47 bits and its payload. -/
theorem frameBits_length (cls sender kind : Nat) (payload : List Byte) :
    (frameBits cls sender kind payload).length = 47 + 8 * payload.length := by
  simp [frameBits, headBits, opening]
  omega

/-- The bits read within the activity are the activity's own. -/
theorem readBits_of_le {bits : List Bool} {i n : Nat} (h : i + n ≤ bits.length) :
    readBits bits i n = (bits.drop i).take n := by
  unfold readBits
  rw [List.drop_append_of_le_length (by omega), List.take_append_of_le_length (by simp; omega)]

/-! ## The curve -/

/-- The raised curve: as many points, none above 127 where none was, and non-decreasing from the floor. -/
theorem raiseCurve_spec (cs : List Nat) (floor : Nat) :
    (raiseCurve floor cs).length = cs.length ∧ (∀ x ∈ raiseCurve floor cs, floor ≤ x) ∧
      (∀ m, floor ≤ m → (∀ c ∈ cs, c ≤ m) → ∀ x ∈ raiseCurve floor cs, x ≤ m) ∧
      (raiseCurve floor cs).Pairwise (· ≤ ·) := by
  induction cs generalizing floor with
  | nil => simp [raiseCurve]
  | cons c cs ih =>
    obtain ⟨h1, h2, h3, h4⟩ := ih (max floor c)
    refine ⟨by simp [raiseCurve, h1], ?_, ?_, ?_⟩
    · intro x hx
      simp only [raiseCurve, List.mem_cons] at hx
      rcases hx with rfl | hx
      · omega
      · have := h2 x hx
        omega
    · intro m hm hc x hx
      simp only [raiseCurve, List.mem_cons] at hx
      have hcm := hc c (by simp)
      rcases hx with rfl | hx
      · omega
      · exact h3 m (by omega) (fun y hy => hc y (by simp [hy])) x hx
    · simp only [raiseCurve, List.pairwise_cons]
      exact ⟨h2, h4⟩

end Sys2Proof.Machine
end

