-- ==== Sys2Proof/Laws/State.lean ====
section
/-! SUPPORT. What replacing one block of the state changes and leaves, field by field; a slot's value after a change of
one slot; and the small lemmas of the counters, the trouble set and the timers. -/

namespace Sys2Proof

/-! ## A value per slot -/

@[simp] theorem PerSlot.get_ofFn {α : Type} (f : Slot → α) (k : Slot) : (PerSlot.ofFn f).get k = f k := by
  revert k
  rw [Fin.forall_fin_succ]
  simp [Fin.forall_fin_succ, PerSlot.ofFn, PerSlot.get]

@[simp] theorem PerSlot.get_all {α : Type} (a : α) (k : Slot) : (PerSlot.all a).get k = a :=
  PerSlot.get_ofFn _ k

theorem PerSlot.get_set {α : Type} (v : PerSlot α) (j k : Slot) (a : α) :
    (v.set j a).get k = if j = k then a else v.get k := by
  revert j k
  simp only [Fin.forall_fin_succ]
  simp [PerSlot.set, PerSlot.get]

@[simp] theorem PerSlot.get_set_self {α : Type} (v : PerSlot α) (k : Slot) (a : α) : (v.set k a).get k = a := by
  simp [PerSlot.get_set]

@[simp] theorem PerSlot.get_set_ne {α : Type} (v : PerSlot α) {j k : Slot} (a : α) (h : j ≠ k) :
    (v.set j a).get k = v.get k := by
  simp [PerSlot.get_set, h]

theorem PerSlot.ext_get {α : Type} {v w : PerSlot α} (h : ∀ k : Slot, v.get k = w.get k) : v = w := by
  cases v
  cases w
  have h0 := h 0
  have h1 := h 1
  have h2 := h 2
  have h3 := h 3
  have h4 := h 4
  have h5 := h 5
  have h6 := h 6
  have h7 := h 7
  simp [PerSlot.get] at h0 h1 h2 h3 h4 h5 h6 h7
  simp [*]

@[simp] theorem mem_slots (k : Slot) : k ∈ slots := by
  revert k
  decide

namespace Machine

/-! ## Replacing one block -/

@[simp] theorem State.setStc_resetLow (s : State) (x : StationControl) : (s.setStc x).resetLow = s.resetLow := rfl
@[simp] theorem State.setStc_pending (s : State) (x : StationControl) : (s.setStc x).pending = s.pending := rfl
@[simp] theorem State.setStc_stc (s : State) (x : StationControl) : (s.setStc x).stc = x := rfl
@[simp] theorem State.setStc_stl (s : State) (x : StationControl) : (s.setStc x).stl = s.stl := rfl
@[simp] theorem State.setStc_mst (s : State) (x : StationControl) : (s.setStc x).mst = s.mst := rfl
@[simp] theorem State.setStc_msc (s : State) (x : StationControl) : (s.setStc x).msc = s.msc := rfl
@[simp] theorem State.setStc_blw (s : State) (x : StationControl) : (s.setStc x).blw = s.blw := rfl
@[simp] theorem State.setStc_grf (s : State) (x : StationControl) : (s.setStc x).grf = s.grf := rfl
@[simp] theorem State.setStc_plu (s : State) (x : StationControl) : (s.setStc x).plu = s.plu := rfl
@[simp] theorem State.setStc_nrs (s : State) (x : StationControl) : (s.setStc x).nrs = s.nrs := rfl
@[simp] theorem State.setStc_lvu (s : State) (x : StationControl) : (s.setStc x).lvu = s.lvu := rfl
@[simp] theorem State.setStc_ofu (s : State) (x : StationControl) : (s.setStc x).ofu = s.ofu := rfl
@[simp] theorem State.setStc_ptb (s : State) (x : StationControl) : (s.setStc x).ptb = s.ptb := rfl
@[simp] theorem State.setStc_lkc (s : State) (x : StationControl) : (s.setStc x).lkc = s.lkc := rfl

@[simp] theorem State.setStl_resetLow (s : State) (x : StartLoader) : (s.setStl x).resetLow = s.resetLow := rfl
@[simp] theorem State.setStl_pending (s : State) (x : StartLoader) : (s.setStl x).pending = s.pending := rfl
@[simp] theorem State.setStl_stc (s : State) (x : StartLoader) : (s.setStl x).stc = s.stc := rfl
@[simp] theorem State.setStl_stl (s : State) (x : StartLoader) : (s.setStl x).stl = x := rfl
@[simp] theorem State.setStl_mst (s : State) (x : StartLoader) : (s.setStl x).mst = s.mst := rfl
@[simp] theorem State.setStl_msc (s : State) (x : StartLoader) : (s.setStl x).msc = s.msc := rfl
@[simp] theorem State.setStl_blw (s : State) (x : StartLoader) : (s.setStl x).blw = s.blw := rfl
@[simp] theorem State.setStl_grf (s : State) (x : StartLoader) : (s.setStl x).grf = s.grf := rfl
@[simp] theorem State.setStl_plu (s : State) (x : StartLoader) : (s.setStl x).plu = s.plu := rfl
@[simp] theorem State.setStl_nrs (s : State) (x : StartLoader) : (s.setStl x).nrs = s.nrs := rfl
@[simp] theorem State.setStl_lvu (s : State) (x : StartLoader) : (s.setStl x).lvu = s.lvu := rfl
@[simp] theorem State.setStl_ofu (s : State) (x : StartLoader) : (s.setStl x).ofu = s.ofu := rfl
@[simp] theorem State.setStl_ptb (s : State) (x : StartLoader) : (s.setStl x).ptb = s.ptb := rfl
@[simp] theorem State.setStl_lkc (s : State) (x : StartLoader) : (s.setStl x).lkc = s.lkc := rfl

@[simp] theorem State.setMst_resetLow (s : State) (x : MapStore) : (s.setMst x).resetLow = s.resetLow := rfl
@[simp] theorem State.setMst_pending (s : State) (x : MapStore) : (s.setMst x).pending = s.pending := rfl
@[simp] theorem State.setMst_stc (s : State) (x : MapStore) : (s.setMst x).stc = s.stc := rfl
@[simp] theorem State.setMst_stl (s : State) (x : MapStore) : (s.setMst x).stl = s.stl := rfl
@[simp] theorem State.setMst_mst (s : State) (x : MapStore) : (s.setMst x).mst = x := rfl
@[simp] theorem State.setMst_msc (s : State) (x : MapStore) : (s.setMst x).msc = s.msc := rfl
@[simp] theorem State.setMst_blw (s : State) (x : MapStore) : (s.setMst x).blw = s.blw := rfl
@[simp] theorem State.setMst_grf (s : State) (x : MapStore) : (s.setMst x).grf = s.grf := rfl
@[simp] theorem State.setMst_plu (s : State) (x : MapStore) : (s.setMst x).plu = s.plu := rfl
@[simp] theorem State.setMst_nrs (s : State) (x : MapStore) : (s.setMst x).nrs = s.nrs := rfl
@[simp] theorem State.setMst_lvu (s : State) (x : MapStore) : (s.setMst x).lvu = s.lvu := rfl
@[simp] theorem State.setMst_ofu (s : State) (x : MapStore) : (s.setMst x).ofu = s.ofu := rfl
@[simp] theorem State.setMst_ptb (s : State) (x : MapStore) : (s.setMst x).ptb = s.ptb := rfl
@[simp] theorem State.setMst_lkc (s : State) (x : MapStore) : (s.setMst x).lkc = s.lkc := rfl

@[simp] theorem State.setMsc_resetLow (s : State) (x : MatrixScanner) : (s.setMsc x).resetLow = s.resetLow := rfl
@[simp] theorem State.setMsc_pending (s : State) (x : MatrixScanner) : (s.setMsc x).pending = s.pending := rfl
@[simp] theorem State.setMsc_stc (s : State) (x : MatrixScanner) : (s.setMsc x).stc = s.stc := rfl
@[simp] theorem State.setMsc_stl (s : State) (x : MatrixScanner) : (s.setMsc x).stl = s.stl := rfl
@[simp] theorem State.setMsc_mst (s : State) (x : MatrixScanner) : (s.setMsc x).mst = s.mst := rfl
@[simp] theorem State.setMsc_msc (s : State) (x : MatrixScanner) : (s.setMsc x).msc = x := rfl
@[simp] theorem State.setMsc_blw (s : State) (x : MatrixScanner) : (s.setMsc x).blw = s.blw := rfl
@[simp] theorem State.setMsc_grf (s : State) (x : MatrixScanner) : (s.setMsc x).grf = s.grf := rfl
@[simp] theorem State.setMsc_plu (s : State) (x : MatrixScanner) : (s.setMsc x).plu = s.plu := rfl
@[simp] theorem State.setMsc_nrs (s : State) (x : MatrixScanner) : (s.setMsc x).nrs = s.nrs := rfl
@[simp] theorem State.setMsc_lvu (s : State) (x : MatrixScanner) : (s.setMsc x).lvu = s.lvu := rfl
@[simp] theorem State.setMsc_ofu (s : State) (x : MatrixScanner) : (s.setMsc x).ofu = s.ofu := rfl
@[simp] theorem State.setMsc_ptb (s : State) (x : MatrixScanner) : (s.setMsc x).ptb = s.ptb := rfl
@[simp] theorem State.setMsc_lkc (s : State) (x : MatrixScanner) : (s.setMsc x).lkc = s.lkc := rfl

@[simp] theorem State.setBlw_resetLow (s : State) (x : BellowsUnit) : (s.setBlw x).resetLow = s.resetLow := rfl
@[simp] theorem State.setBlw_pending (s : State) (x : BellowsUnit) : (s.setBlw x).pending = s.pending := rfl
@[simp] theorem State.setBlw_stc (s : State) (x : BellowsUnit) : (s.setBlw x).stc = s.stc := rfl
@[simp] theorem State.setBlw_stl (s : State) (x : BellowsUnit) : (s.setBlw x).stl = s.stl := rfl
@[simp] theorem State.setBlw_mst (s : State) (x : BellowsUnit) : (s.setBlw x).mst = s.mst := rfl
@[simp] theorem State.setBlw_msc (s : State) (x : BellowsUnit) : (s.setBlw x).msc = s.msc := rfl
@[simp] theorem State.setBlw_blw (s : State) (x : BellowsUnit) : (s.setBlw x).blw = x := rfl
@[simp] theorem State.setBlw_grf (s : State) (x : BellowsUnit) : (s.setBlw x).grf = s.grf := rfl
@[simp] theorem State.setBlw_plu (s : State) (x : BellowsUnit) : (s.setBlw x).plu = s.plu := rfl
@[simp] theorem State.setBlw_nrs (s : State) (x : BellowsUnit) : (s.setBlw x).nrs = s.nrs := rfl
@[simp] theorem State.setBlw_lvu (s : State) (x : BellowsUnit) : (s.setBlw x).lvu = s.lvu := rfl
@[simp] theorem State.setBlw_ofu (s : State) (x : BellowsUnit) : (s.setBlw x).ofu = s.ofu := rfl
@[simp] theorem State.setBlw_ptb (s : State) (x : BellowsUnit) : (s.setBlw x).ptb = s.ptb := rfl
@[simp] theorem State.setBlw_lkc (s : State) (x : BellowsUnit) : (s.setBlw x).lkc = s.lkc := rfl

@[simp] theorem State.setGrf_resetLow (s : State) (x : GroupFollower) : (s.setGrf x).resetLow = s.resetLow := rfl
@[simp] theorem State.setGrf_pending (s : State) (x : GroupFollower) : (s.setGrf x).pending = s.pending := rfl
@[simp] theorem State.setGrf_stc (s : State) (x : GroupFollower) : (s.setGrf x).stc = s.stc := rfl
@[simp] theorem State.setGrf_stl (s : State) (x : GroupFollower) : (s.setGrf x).stl = s.stl := rfl
@[simp] theorem State.setGrf_mst (s : State) (x : GroupFollower) : (s.setGrf x).mst = s.mst := rfl
@[simp] theorem State.setGrf_msc (s : State) (x : GroupFollower) : (s.setGrf x).msc = s.msc := rfl
@[simp] theorem State.setGrf_blw (s : State) (x : GroupFollower) : (s.setGrf x).blw = s.blw := rfl
@[simp] theorem State.setGrf_grf (s : State) (x : GroupFollower) : (s.setGrf x).grf = x := rfl
@[simp] theorem State.setGrf_plu (s : State) (x : GroupFollower) : (s.setGrf x).plu = s.plu := rfl
@[simp] theorem State.setGrf_nrs (s : State) (x : GroupFollower) : (s.setGrf x).nrs = s.nrs := rfl
@[simp] theorem State.setGrf_lvu (s : State) (x : GroupFollower) : (s.setGrf x).lvu = s.lvu := rfl
@[simp] theorem State.setGrf_ofu (s : State) (x : GroupFollower) : (s.setGrf x).ofu = s.ofu := rfl
@[simp] theorem State.setGrf_ptb (s : State) (x : GroupFollower) : (s.setGrf x).ptb = s.ptb := rfl
@[simp] theorem State.setGrf_lkc (s : State) (x : GroupFollower) : (s.setGrf x).lkc = s.lkc := rfl

@[simp] theorem State.setPlu_resetLow (s : State) (x : PlacementUnit) : (s.setPlu x).resetLow = s.resetLow := rfl
@[simp] theorem State.setPlu_pending (s : State) (x : PlacementUnit) : (s.setPlu x).pending = s.pending := rfl
@[simp] theorem State.setPlu_stc (s : State) (x : PlacementUnit) : (s.setPlu x).stc = s.stc := rfl
@[simp] theorem State.setPlu_stl (s : State) (x : PlacementUnit) : (s.setPlu x).stl = s.stl := rfl
@[simp] theorem State.setPlu_mst (s : State) (x : PlacementUnit) : (s.setPlu x).mst = s.mst := rfl
@[simp] theorem State.setPlu_msc (s : State) (x : PlacementUnit) : (s.setPlu x).msc = s.msc := rfl
@[simp] theorem State.setPlu_blw (s : State) (x : PlacementUnit) : (s.setPlu x).blw = s.blw := rfl
@[simp] theorem State.setPlu_grf (s : State) (x : PlacementUnit) : (s.setPlu x).grf = s.grf := rfl
@[simp] theorem State.setPlu_plu (s : State) (x : PlacementUnit) : (s.setPlu x).plu = x := rfl
@[simp] theorem State.setPlu_nrs (s : State) (x : PlacementUnit) : (s.setPlu x).nrs = s.nrs := rfl
@[simp] theorem State.setPlu_lvu (s : State) (x : PlacementUnit) : (s.setPlu x).lvu = s.lvu := rfl
@[simp] theorem State.setPlu_ofu (s : State) (x : PlacementUnit) : (s.setPlu x).ofu = s.ofu := rfl
@[simp] theorem State.setPlu_ptb (s : State) (x : PlacementUnit) : (s.setPlu x).ptb = s.ptb := rfl
@[simp] theorem State.setPlu_lkc (s : State) (x : PlacementUnit) : (s.setPlu x).lkc = s.lkc := rfl

@[simp] theorem State.setNrs_resetLow (s : State) (x : NoteRoster) : (s.setNrs x).resetLow = s.resetLow := rfl
@[simp] theorem State.setNrs_pending (s : State) (x : NoteRoster) : (s.setNrs x).pending = s.pending := rfl
@[simp] theorem State.setNrs_stc (s : State) (x : NoteRoster) : (s.setNrs x).stc = s.stc := rfl
@[simp] theorem State.setNrs_stl (s : State) (x : NoteRoster) : (s.setNrs x).stl = s.stl := rfl
@[simp] theorem State.setNrs_mst (s : State) (x : NoteRoster) : (s.setNrs x).mst = s.mst := rfl
@[simp] theorem State.setNrs_msc (s : State) (x : NoteRoster) : (s.setNrs x).msc = s.msc := rfl
@[simp] theorem State.setNrs_blw (s : State) (x : NoteRoster) : (s.setNrs x).blw = s.blw := rfl
@[simp] theorem State.setNrs_grf (s : State) (x : NoteRoster) : (s.setNrs x).grf = s.grf := rfl
@[simp] theorem State.setNrs_plu (s : State) (x : NoteRoster) : (s.setNrs x).plu = s.plu := rfl
@[simp] theorem State.setNrs_nrs (s : State) (x : NoteRoster) : (s.setNrs x).nrs = x := rfl
@[simp] theorem State.setNrs_lvu (s : State) (x : NoteRoster) : (s.setNrs x).lvu = s.lvu := rfl
@[simp] theorem State.setNrs_ofu (s : State) (x : NoteRoster) : (s.setNrs x).ofu = s.ofu := rfl
@[simp] theorem State.setNrs_ptb (s : State) (x : NoteRoster) : (s.setNrs x).ptb = s.ptb := rfl
@[simp] theorem State.setNrs_lkc (s : State) (x : NoteRoster) : (s.setNrs x).lkc = s.lkc := rfl

@[simp] theorem State.setLvu_resetLow (s : State) (x : LevelUnit) : (s.setLvu x).resetLow = s.resetLow := rfl
@[simp] theorem State.setLvu_pending (s : State) (x : LevelUnit) : (s.setLvu x).pending = s.pending := rfl
@[simp] theorem State.setLvu_stc (s : State) (x : LevelUnit) : (s.setLvu x).stc = s.stc := rfl
@[simp] theorem State.setLvu_stl (s : State) (x : LevelUnit) : (s.setLvu x).stl = s.stl := rfl
@[simp] theorem State.setLvu_mst (s : State) (x : LevelUnit) : (s.setLvu x).mst = s.mst := rfl
@[simp] theorem State.setLvu_msc (s : State) (x : LevelUnit) : (s.setLvu x).msc = s.msc := rfl
@[simp] theorem State.setLvu_blw (s : State) (x : LevelUnit) : (s.setLvu x).blw = s.blw := rfl
@[simp] theorem State.setLvu_grf (s : State) (x : LevelUnit) : (s.setLvu x).grf = s.grf := rfl
@[simp] theorem State.setLvu_plu (s : State) (x : LevelUnit) : (s.setLvu x).plu = s.plu := rfl
@[simp] theorem State.setLvu_nrs (s : State) (x : LevelUnit) : (s.setLvu x).nrs = s.nrs := rfl
@[simp] theorem State.setLvu_lvu (s : State) (x : LevelUnit) : (s.setLvu x).lvu = x := rfl
@[simp] theorem State.setLvu_ofu (s : State) (x : LevelUnit) : (s.setLvu x).ofu = s.ofu := rfl
@[simp] theorem State.setLvu_ptb (s : State) (x : LevelUnit) : (s.setLvu x).ptb = s.ptb := rfl
@[simp] theorem State.setLvu_lkc (s : State) (x : LevelUnit) : (s.setLvu x).lkc = s.lkc := rfl

@[simp] theorem State.setOfu_resetLow (s : State) (x : OfferUnit) : (s.setOfu x).resetLow = s.resetLow := rfl
@[simp] theorem State.setOfu_pending (s : State) (x : OfferUnit) : (s.setOfu x).pending = s.pending := rfl
@[simp] theorem State.setOfu_stc (s : State) (x : OfferUnit) : (s.setOfu x).stc = s.stc := rfl
@[simp] theorem State.setOfu_stl (s : State) (x : OfferUnit) : (s.setOfu x).stl = s.stl := rfl
@[simp] theorem State.setOfu_mst (s : State) (x : OfferUnit) : (s.setOfu x).mst = s.mst := rfl
@[simp] theorem State.setOfu_msc (s : State) (x : OfferUnit) : (s.setOfu x).msc = s.msc := rfl
@[simp] theorem State.setOfu_blw (s : State) (x : OfferUnit) : (s.setOfu x).blw = s.blw := rfl
@[simp] theorem State.setOfu_grf (s : State) (x : OfferUnit) : (s.setOfu x).grf = s.grf := rfl
@[simp] theorem State.setOfu_plu (s : State) (x : OfferUnit) : (s.setOfu x).plu = s.plu := rfl
@[simp] theorem State.setOfu_nrs (s : State) (x : OfferUnit) : (s.setOfu x).nrs = s.nrs := rfl
@[simp] theorem State.setOfu_lvu (s : State) (x : OfferUnit) : (s.setOfu x).lvu = s.lvu := rfl
@[simp] theorem State.setOfu_ofu (s : State) (x : OfferUnit) : (s.setOfu x).ofu = x := rfl
@[simp] theorem State.setOfu_ptb (s : State) (x : OfferUnit) : (s.setOfu x).ptb = s.ptb := rfl
@[simp] theorem State.setOfu_lkc (s : State) (x : OfferUnit) : (s.setOfu x).lkc = s.lkc := rfl

@[simp] theorem State.setPtb_resetLow (s : State) (x : PeerTable) : (s.setPtb x).resetLow = s.resetLow := rfl
@[simp] theorem State.setPtb_pending (s : State) (x : PeerTable) : (s.setPtb x).pending = s.pending := rfl
@[simp] theorem State.setPtb_stc (s : State) (x : PeerTable) : (s.setPtb x).stc = s.stc := rfl
@[simp] theorem State.setPtb_stl (s : State) (x : PeerTable) : (s.setPtb x).stl = s.stl := rfl
@[simp] theorem State.setPtb_mst (s : State) (x : PeerTable) : (s.setPtb x).mst = s.mst := rfl
@[simp] theorem State.setPtb_msc (s : State) (x : PeerTable) : (s.setPtb x).msc = s.msc := rfl
@[simp] theorem State.setPtb_blw (s : State) (x : PeerTable) : (s.setPtb x).blw = s.blw := rfl
@[simp] theorem State.setPtb_grf (s : State) (x : PeerTable) : (s.setPtb x).grf = s.grf := rfl
@[simp] theorem State.setPtb_plu (s : State) (x : PeerTable) : (s.setPtb x).plu = s.plu := rfl
@[simp] theorem State.setPtb_nrs (s : State) (x : PeerTable) : (s.setPtb x).nrs = s.nrs := rfl
@[simp] theorem State.setPtb_lvu (s : State) (x : PeerTable) : (s.setPtb x).lvu = s.lvu := rfl
@[simp] theorem State.setPtb_ofu (s : State) (x : PeerTable) : (s.setPtb x).ofu = s.ofu := rfl
@[simp] theorem State.setPtb_ptb (s : State) (x : PeerTable) : (s.setPtb x).ptb = x := rfl
@[simp] theorem State.setPtb_lkc (s : State) (x : PeerTable) : (s.setPtb x).lkc = s.lkc := rfl

@[simp] theorem State.setLkc_resetLow (s : State) (x : LinkController) : (s.setLkc x).resetLow = s.resetLow := rfl
@[simp] theorem State.setLkc_pending (s : State) (x : LinkController) : (s.setLkc x).pending = s.pending := rfl
@[simp] theorem State.setLkc_stc (s : State) (x : LinkController) : (s.setLkc x).stc = s.stc := rfl
@[simp] theorem State.setLkc_stl (s : State) (x : LinkController) : (s.setLkc x).stl = s.stl := rfl
@[simp] theorem State.setLkc_mst (s : State) (x : LinkController) : (s.setLkc x).mst = s.mst := rfl
@[simp] theorem State.setLkc_msc (s : State) (x : LinkController) : (s.setLkc x).msc = s.msc := rfl
@[simp] theorem State.setLkc_blw (s : State) (x : LinkController) : (s.setLkc x).blw = s.blw := rfl
@[simp] theorem State.setLkc_grf (s : State) (x : LinkController) : (s.setLkc x).grf = s.grf := rfl
@[simp] theorem State.setLkc_plu (s : State) (x : LinkController) : (s.setLkc x).plu = s.plu := rfl
@[simp] theorem State.setLkc_nrs (s : State) (x : LinkController) : (s.setLkc x).nrs = s.nrs := rfl
@[simp] theorem State.setLkc_lvu (s : State) (x : LinkController) : (s.setLkc x).lvu = s.lvu := rfl
@[simp] theorem State.setLkc_ofu (s : State) (x : LinkController) : (s.setLkc x).ofu = s.ofu := rfl
@[simp] theorem State.setLkc_ptb (s : State) (x : LinkController) : (s.setLkc x).ptb = s.ptb := rfl
@[simp] theorem State.setLkc_lkc (s : State) (x : LinkController) : (s.setLkc x).lkc = x := rfl

/-! ## Timers -/

@[simp] theorem Timer.running_some (n : Nat) : Timer.running (some n) = true := rfl
@[simp] theorem Timer.running_none : Timer.running none = false := rfl
@[simp] theorem Timer.tick_none : Timer.tick none = none := rfl
@[simp] theorem Timer.tick_some (n : Nat) : Timer.tick (some n) = some (n - 1) := rfl
@[simp] theorem Timer.running_tick (t : Timer) : t.tick.running = t.running := by cases t <;> rfl

theorem Timer.running_eq_true {t : Timer} : t.running = true ↔ t ≠ none := by cases t <;> simp

/-! ## RESET and the station state -/

theorem State.whenUp_of_up {s : State} (h : s.resetLow = false) (f : State → State) : s.whenUp f = f s := by
  simp [State.whenUp, h]

theorem State.whenUp_of_low {s : State} (h : s.resetLow = true) (f : State → State) : s.whenUp f = s := by
  simp [State.whenUp, h]

theorem State.working_iff {s : State} : s.working = true ↔
    s.stc.station = .joining ∨ s.stc.station = .run ∨ s.stc.station = .reloading := by
  simp only [State.working]
  cases s.stc.station <;> simp

theorem State.playing_iff {s : State} : s.playing = true ↔ s.stc.station = .run ∨ s.stc.station = .reloading := by
  simp only [State.playing]
  cases s.stc.station <;> simp

theorem State.working_of_playing {s : State} (h : s.playing = true) : s.working = true := by
  rcases State.playing_iff.1 h with h | h <;> simp [State.working, h]

/-! ## The counters and the trouble set -/

@[simp] theorem State.mapCounters_eq (s : State) (f : Counters → Counters) :
    s.mapCounters f = s.setStc { s.stc with counters := f s.stc.counters } := rfl
@[simp] theorem State.mapTrouble_eq (s : State) (f : TroubleSet → TroubleSet) :
    s.mapTrouble f = s.setStc { s.stc with trouble := f s.stc.trouble } := rfl

theorem satAdd_le (c n : Nat) : satAdd c n ≤ 65535 := by
  unfold satAdd
  omega

/-- What `countUnplaced` does: unplacedNotes counts once, up to 65535, and nothing else changes. -/
theorem State.countUnplaced_eq (s : State) : s.countUnplaced = s.setStc { s.stc with
    counters := { s.stc.counters with unplacedNotes := min (s.stc.counters.unplacedNotes + 1) 65535 } } := rfl

/-- What `countStolen` does: stolenNotes counts once, up to 65535, and nothing else changes. -/
theorem State.countStolen_eq (s : State) : s.countStolen = s.setStc { s.stc with
    counters := { s.stc.counters with stolenNotes := min (s.stc.counters.stolenNotes + 1) 65535 } } := rfl

/-- What `countHeldOverflow` does: heldOverflows counts once, up to 65535, and nothing else changes. -/
theorem State.countHeldOverflow_eq (s : State) : s.countHeldOverflow = s.setStc { s.stc with
    counters := { s.stc.counters with heldOverflows := min (s.stc.counters.heldOverflows + 1) 65535 } } := rfl

/-- What `countReceiveError` does: receiveErrors counts once, up to 65535, and nothing else changes. -/
theorem State.countReceiveError_eq (s : State) : s.countReceiveError = s.setStc { s.stc with
    counters := { s.stc.counters with receiveErrors := min (s.stc.counters.receiveErrors + 1) 65535 } } := rfl

/-- What `countTransmitFailure` does: transmitFailures counts once, up to 65535, and nothing else changes. -/
theorem State.countTransmitFailure_eq (s : State) : s.countTransmitFailure = s.setStc { s.stc with
    counters := { s.stc.counters with transmitFailures := min (s.stc.counters.transmitFailures + 1) 65535 } } := rfl

/-- What `countExhaustion` does: engineExhaustions counts once, up to 65535, and nothing else changes. -/
theorem State.countExhaustion_eq (s : State) : s.countExhaustion = s.setStc { s.stc with
    counters := { s.stc.counters with engineExhaustions := min (s.stc.counters.engineExhaustions + 1) 65535 } } := rfl

/-- What `countMisses` does: mapMisses counts `n` times, up to 65535, and nothing else changes. -/
theorem State.countMisses_eq (s : State) (n : Nat) : s.countMisses n = s.setStc { s.stc with
    counters := { s.stc.counters with mapMisses := min (s.stc.counters.mapMisses + n) 65535 } } := rfl

/-- What `setSensorLost` does: one condition of the trouble set, and nothing else, takes the value. -/
theorem State.setSensorLost_eq (s : State) (b : Bool) :
    s.setSensorLost b = s.setStc { s.stc with trouble := { s.stc.trouble with sensorLost := b } } := rfl

/-- What `setBellowsLost` does: one condition of the trouble set, and nothing else, takes the value. -/
theorem State.setBellowsLost_eq (s : State) (b : Bool) :
    s.setBellowsLost b = s.setStc { s.stc with trouble := { s.stc.trouble with bellowsLost := b } } := rfl

/-- What `setEngineAbsent` does: one condition of the trouble set, and nothing else, takes the value. -/
theorem State.setEngineAbsent_eq (s : State) (b : Bool) :
    s.setEngineAbsent b = s.setStc { s.stc with trouble := { s.stc.trouble with engineAbsent := b } } := rfl

/-- What `setLinkDrop` does: one condition of the trouble set, and nothing else, takes the value. -/
theorem State.setLinkDrop_eq (s : State) (b : Bool) :
    s.setLinkDrop b = s.setStc { s.stc with trouble := { s.stc.trouble with linkDrop := b } } := rfl

/-! ## A step -/

theorem step_cons (s : State) (c : Instr) (rest : List Instr) (h : s.pending = c :: rest) :
    step s = exec c { s with pending := rest } := by
  simp [step, h]

theorem step_nil (s : State) (h : s.pending = []) : step s = .next s.elapse := by
  simp [step, h]

end Machine

end Sys2Proof
end

