-- ==== Sys2Proof/Laws/Notes.lean ====
section
/-! SUPPORT. The frame of everything a note passes through: each operation of the Link Controller's lists, the Level
Unit, the Note Roster and the Placement Unit leaves every other block as it stands (`State.NotesOnly`). -/

namespace Sys2Proof.Machine

theorem State.notesOnly_iff {s t : State} : State.NotesOnly s t ↔
    t.resetLow = s.resetLow ∧ t.pending = s.pending ∧ t.stc = { s.stc with counters := t.stc.counters } ∧
      t.stl = s.stl ∧ t.mst = s.mst ∧ t.msc = s.msc ∧ t.blw = s.blw ∧ t.grf = s.grf ∧ t.ofu = s.ofu ∧
      t.ptb = s.ptb ∧
      t.lkc = { s.lkc with noteQueue := t.lkc.noteQueue, updates := t.lkc.updates, tx := t.lkc.tx } := by
  constructor
  · intro h
    refine ⟨?_, ?_, ?_, ?_, ?_, ?_, ?_, ?_, ?_, ?_, ?_⟩ <;> (rw [h])
  · rintro ⟨h1, h2, h3, h4, h5, h6, h7, h8, h9, h10, h11⟩
    cases t
    simp only at h1 h2 h3 h4 h5 h6 h7 h8 h9 h10 h11
    subst h1 h2 h4 h5 h6 h7 h8 h9 h10
    unfold State.NotesOnly
    simp only
    rw [← h3, ← h11]

namespace State.NotesOnly

theorem refl (s : State) : State.NotesOnly s s := rfl

theorem trans {s t u : State} (h : State.NotesOnly s t) (g : State.NotesOnly t u) : State.NotesOnly s u := by
  rw [State.notesOnly_iff] at *
  obtain ⟨h1, h2, h3, h4, h5, h6, h7, h8, h9, h10, h11⟩ := h
  obtain ⟨g1, g2, g3, g4, g5, g6, g7, g8, g9, g10, g11⟩ := g
  refine ⟨g1.trans h1, g2.trans h2, ?_, g4.trans h4, g5.trans h5, g6.trans h6, g7.trans h7, g8.trans h8, g9.trans h9,
    g10.trans h10, ?_⟩
  · rw [g3, h3]
  · rw [g11, h11]

theorem resetLow_eq {s t : State} (h : State.NotesOnly s t) : t.resetLow = s.resetLow := (State.notesOnly_iff.1 h).1
theorem pending_eq {s t : State} (h : State.NotesOnly s t) : t.pending = s.pending := (State.notesOnly_iff.1 h).2.1
theorem stc_eq {s t : State} (h : State.NotesOnly s t) : t.stc = { s.stc with counters := t.stc.counters } :=
  (State.notesOnly_iff.1 h).2.2.1
theorem stl_eq {s t : State} (h : State.NotesOnly s t) : t.stl = s.stl := (State.notesOnly_iff.1 h).2.2.2.1
theorem mst_eq {s t : State} (h : State.NotesOnly s t) : t.mst = s.mst := (State.notesOnly_iff.1 h).2.2.2.2.1
theorem msc_eq {s t : State} (h : State.NotesOnly s t) : t.msc = s.msc := (State.notesOnly_iff.1 h).2.2.2.2.2.1
theorem blw_eq {s t : State} (h : State.NotesOnly s t) : t.blw = s.blw := (State.notesOnly_iff.1 h).2.2.2.2.2.2.1
theorem grf_eq {s t : State} (h : State.NotesOnly s t) : t.grf = s.grf := (State.notesOnly_iff.1 h).2.2.2.2.2.2.2.1
theorem ofu_eq {s t : State} (h : State.NotesOnly s t) : t.ofu = s.ofu := (State.notesOnly_iff.1 h).2.2.2.2.2.2.2.2.1
theorem ptb_eq {s t : State} (h : State.NotesOnly s t) : t.ptb = s.ptb :=
  (State.notesOnly_iff.1 h).2.2.2.2.2.2.2.2.2.1
theorem lkc_eq {s t : State} (h : State.NotesOnly s t) :
    t.lkc = { s.lkc with noteQueue := t.lkc.noteQueue, updates := t.lkc.updates, tx := t.lkc.tx } :=
  (State.notesOnly_iff.1 h).2.2.2.2.2.2.2.2.2.2

theorem station_eq {s t : State} (h : State.NotesOnly s t) : t.stc.station = s.stc.station := by rw [h.stc_eq]
theorem trouble_eq {s t : State} (h : State.NotesOnly s t) : t.stc.trouble = s.stc.trouble := by rw [h.stc_eq]
theorem working_eq {s t : State} (h : State.NotesOnly s t) : t.working = s.working := by
  simp only [State.working, h.station_eq]
theorem playing_eq {s t : State} (h : State.NotesOnly s t) : t.playing = s.playing := by
  simp only [State.playing, h.station_eq]

/-- A change made one item after another. -/
theorem foldl {α : Type} {f : State → α → State} (hf : ∀ s a, State.NotesOnly s (f s a)) (l : List α) (s : State) :
    State.NotesOnly s (l.foldl f s) := by
  induction l generalizing s with
  | nil => exact refl s
  | cons a l ih => exact (hf s a).trans (ih _)

/-! ## The counters -/

theorem mapCounters (s : State) (f : Counters → Counters) : State.NotesOnly s (s.mapCounters f) := rfl
theorem countUnplaced (s : State) : State.NotesOnly s s.countUnplaced := rfl
theorem countMisses (s : State) (n : Nat) : State.NotesOnly s (s.countMisses n) := rfl
theorem countStolen (s : State) : State.NotesOnly s s.countStolen := rfl
theorem countHeldOverflow (s : State) : State.NotesOnly s s.countHeldOverflow := rfl
theorem countIfStolen (s : State) (a : EndArticulation) : State.NotesOnly s (s.countIfStolen a) := by
  unfold State.countIfStolen
  split <;> rfl

/-! ## Replacing a block of the note path -/

theorem setPlu (s : State) (x : PlacementUnit) : State.NotesOnly s (s.setPlu x) := rfl
theorem setNrs (s : State) (x : NoteRoster) : State.NotesOnly s (s.setNrs x) := rfl
theorem setLvu (s : State) (x : LevelUnit) : State.NotesOnly s (s.setLvu x) := rfl
theorem setTx (s : State) (x : Option Attempt) : State.NotesOnly s (s.setLkc { s.lkc with tx := x }) := rfl

/-! ## The note queue and the update table -/

theorem mapQueue (s : State) (f : List QueueItem → List QueueItem) : State.NotesOnly s (s.mapQueue f) := rfl
theorem enqueue (s : State) (f : NoteFrame) : State.NotesOnly s (s.enqueue f) := rfl
theorem withdrawTag (s : State) (tag : Nat) : State.NotesOnly s (s.withdrawTag tag) := rfl
theorem withdrawBow (s : State) : State.NotesOnly s s.withdrawBow := rfl
theorem replaceTag (s : State) (tag : Nat) (f : NoteFrame) : State.NotesOnly s (s.replaceTag tag f) := rfl
theorem holdWithdrawal (s : State) (held : Bool) : State.NotesOnly s (s.holdWithdrawal held) := rfl
theorem putEntry (s : State) (key : TableKey) (e : Option TableEntry) : State.NotesOnly s (s.putEntry key e) := rfl

theorem writeEntry (s : State) (key : TableKey) (f : OutFrame) : State.NotesOnly s (s.writeEntry key f) := by
  unfold State.writeEntry
  dsimp only
  split <;> rfl

theorem removeEntry (s : State) (key : TableKey) : State.NotesOnly s (s.removeEntry key) := by
  unfold State.removeEntry
  split <;> rfl

/-! ## The Level Unit -/

theorem writeLevel (s : State) (k : Slot) : State.NotesOnly s (s.writeLevel k) :=
  (writeEntry s _ _).trans (setLvu _ _)

theorem examineLevel (s : State) (k : Slot) : State.NotesOnly s (s.examineLevel k) := by
  unfold State.examineLevel
  split
  · exact writeLevel s k
  · exact refl s

theorem recomputeLevels (s : State) : State.NotesOnly s s.recomputeLevels :=
  (setLvu s _).trans (foldl examineLevel _ _)

theorem restartLevel (s : State) (k : Slot) : State.NotesOnly s (s.restartLevel k) := by
  unfold State.restartLevel
  split
  · exact (writeLevel s k).trans (setLvu _ _)
  · exact refl s

theorem restartLevels (s : State) : State.NotesOnly s s.restartLevels :=
  foldl restartLevel _ _

theorem removeLevel (s : State) (k : Slot) : State.NotesOnly s (s.removeLevel k) := by
  unfold State.removeLevel
  split
  · exact refl s
  · split
    · exact (removeEntry s _).trans (setLvu _ _)
    · exact removeEntry s _

theorem levelRises (s : State) (k : Slot) : State.NotesOnly s (s.levelRises k) := by
  unfold State.levelRises
  dsimp only
  split
  · exact ((setLvu s _).trans (setLvu _ _)).trans (writeLevel _ k)
  · exact setLvu s _

theorem reportCount (s : State) (k : Slot) : State.NotesOnly s (s.reportCount k) := by
  unfold State.reportCount
  dsimp only
  split
  · exact (setLvu s _).trans (levelRises _ k)
  · split
    · exact (setLvu s _).trans (removeLevel _ k)
    · exact setLvu s _

theorem levelAttemptEnded (s : State) (k : Slot) : State.NotesOnly s (s.levelAttemptEnded k) := rfl

/-! ## The Note Roster -/

theorem mapEntry (s : State) (tag : Nat) (f : RosterEntry → RosterEntry) : State.NotesOnly s (s.mapEntry tag f) := rfl
theorem freeEntry (s : State) (tag : Nat) : State.NotesOnly s (s.freeEntry tag) := rfl

theorem queueStop (s : State) (tag : Nat) (a : EndArticulation) : State.NotesOnly s (s.queueStop tag a) :=
  ((mapEntry s tag _).trans (enqueue _ _)).trans (countIfStolen _ a)

theorem endEntry (s : State) (tag : Nat) (a : EndArticulation) : State.NotesOnly s (s.endEntry tag a) := by
  unfold State.endEntry
  split
  · exact refl s
  · split
    · exact refl s
    · split
      · exact ((mapEntry s tag _).trans (holdWithdrawal _ _)).trans (reportCount _ _)
      · exact ((withdrawTag s tag).trans (freeEntry _ tag)).trans (reportCount _ _)
    · split
      · exact ((mapEntry s tag _).trans (holdWithdrawal _ _)).trans (reportCount _ _)
      · exact (((mapEntry s tag _).trans (replaceTag _ tag _)).trans (countIfStolen _ a)).trans (reportCount _ _)
    · exact ((mapEntry s tag _).trans (queueStop _ tag a)).trans (reportCount _ _)

theorem removeTag (s : State) (tag : Nat) : State.NotesOnly s (s.removeTag tag) := rfl

theorem endVictim (s : State) (tag : Nat) (a : EndArticulation) : State.NotesOnly s (s.endVictim tag a) :=
  (endEntry s tag a).trans (removeTag _ tag)

theorem releaseHolder (s : State) (a : EndArticulation) (tag : Nat) : State.NotesOnly s (s.releaseHolder a tag) := by
  unfold State.releaseHolder
  split
  · exact refl s
  · split
    · dsimp only
      split
      · exact (mapEntry s tag _).trans (endEntry _ tag a)
      · exact mapEntry s tag _
    · exact refl s

theorem newEntry (s : State) (r : NoteRequest) (k : Slot) (pitch : Nat) :
    State.NotesOnly s (s.newEntry r k pitch).2 :=
  ((setNrs s _).trans (enqueue _ _)).trans (reportCount _ k)

theorem capacityStep (s : State) (r : NoteRequest) (k : Slot) (pitch : Nat) :
    State.NotesOnly s (s.capacityStep r k pitch).2 := by
  unfold State.capacityStep
  split
  · exact newEntry s r k pitch
  · split
    · exact refl s
    · dsimp only
      split
      · exact (endVictim s _ _).trans (newEntry _ r k pitch)
      · exact endVictim s _ _

theorem newNote (s : State) (r : NoteRequest) (k : Slot) (pitch : Nat) :
    State.NotesOnly s (s.newNote r k pitch).2 := by
  unfold State.newNote
  split
  · exact capacityStep s r k pitch
  · split
    · exact refl s
    · split
      · exact capacityStep s r k pitch
      · exact (endVictim s _ _).trans (capacityStep _ r k pitch)

theorem revive (s : State) (r : NoteRequest) (e : RosterEntry) : State.NotesOnly s (s.revive r e).2 := by
  unfold State.revive
  split
  · dsimp only
    split
    · exact ((withdrawTag s _).trans (mapEntry _ _ _)).trans (reportCount _ _)
    · exact ((holdWithdrawal s _).trans (mapEntry _ _ _)).trans (reportCount _ _)
  · exact refl s

theorem handleRequest (s : State) (r : NoteRequest) : State.NotesOnly s (s.handleRequest r).2 := by
  unfold State.handleRequest
  split
  · exact refl s
  · split
    · exact newNote s r _ _
    · split
      · exact mapEntry s _ _
      · split
        · exact setNrs s _
        · exact revive s r _

theorem answerRequest (s : State) (r : NoteRequest) : State.NotesOnly s (s.answerRequest r).2 := by
  have h := handleRequest s r
  unfold State.answerRequest
  split
  · rename_i t heq
    rw [heq] at h
    exact h.trans (countUnplaced t)
  · exact h

theorem trimOldest (k : Slot) (a : EndArticulation) (n : Nat) (s : State) :
    State.NotesOnly s (State.trimOldest k a n s) := by
  induction n generalizing s with
  | zero => exact refl s
  | succ n ih =>
    unfold State.trimOldest
    split
    · exact refl s
    · exact (endVictim s _ a).trans (ih _)

theorem trimSlot (s : State) (k : Slot) : State.NotesOnly s (s.trimSlot k) := trimOldest k _ _ s

theorem trimAll (s : State) : State.NotesOnly s s.trimAll := foldl trimSlot _ s

theorem refreshEntry (s : State) (e : RosterEntry) : State.NotesOnly s (s.refreshEntry e) := by
  unfold State.refreshEntry
  split
  · exact (mapEntry s _ _).trans (enqueue _ _)
  · exact refl s

theorem refresh (s : State) : State.NotesOnly s s.refresh := foldl refreshEntry _ s

theorem rosterPanic (s : State) : State.NotesOnly s s.rosterPanic :=
  (foldl (fun t (e : RosterEntry) => endEntry t e.tag .panic) _ s).trans (setNrs _ _)

/-! ## The Placement Unit -/

theorem mapRecord (s : State) (contact : Nat) (f : HeldRecord → HeldRecord) :
    State.NotesOnly s (s.mapRecord contact f) := rfl
theorem appendTag (s : State) (contact tag : Nat) : State.NotesOnly s (s.appendTag contact tag) := rfl

theorem sendRequests (contact : Nat) (rs : List NoteRequest) (s : State) :
    State.NotesOnly s (State.sendRequests contact rs s).1 := by
  induction rs generalizing s with
  | nil => exact refl s
  | cons r rs ih =>
    have h := answerRequest s r
    unfold State.sendRequests
    split <;> (rename_i heq; rw [heq] at h)
    · exact (h.trans (appendTag _ contact _)).trans (ih _)
    · exact h.trans (ih _)
    · exact h

theorem placeRecord (s : State) (contact : Nat) : State.NotesOnly s (s.placeRecord contact) := by
  unfold State.placeRecord
  split
  · exact refl s
  · rename_i r _
    dsimp only
    have h := ((mapRecord s contact fun x => { x with state := .placed, direction := s.grf.direction }).trans
      (countMisses _ (s.lookupRecord r).misses)).trans (sendRequests contact ((s.lookupRecord r).requests .placement) _)
    split <;> (rename_i heq; rw [heq] at h)
    · exact h
    · exact h.trans (setPlu _ _)

theorem placeAll (cs : List Nat) (s : State) : State.NotesOnly s (State.placeAll cs s) := by
  induction cs generalizing s with
  | nil => exact setPlu s _
  | cons c cs ih =>
    unfold State.placeAll
    dsimp only
    split
    · exact (setPlu s _).trans (placeRecord _ c)
    · exact ((setPlu s _).trans (placeRecord _ c)).trans (ih _)

theorem fadeRecord (s : State) (r : HeldRecord) : State.NotesOnly s (s.fadeRecord r) := by
  unfold State.fadeRecord
  split
  · exact (foldl (fun t => releaseHolder t .fade) _ s).trans (mapRecord _ _ _)
  · exact refl s

theorem fade (s : State) : State.NotesOnly s s.fade := (foldl fadeRecord _ s).trans (setPlu _ _)

theorem takeFall (s : State) : State.NotesOnly s s.takeFall := by
  unfold State.takeFall
  split
  · split
    · exact fade s
    · exact setPlu s _
  · exact refl s

theorem releaseUnmatched (s : State) (m : Matched) : State.NotesOnly s (s.releaseUnmatched m) :=
  (mapRecord s _ _).trans (foldl (fun t => releaseHolder t .reversal) _ _)

theorem sendBow (s : State) (d : Direction) (mask : SlotMask) : State.NotesOnly s (s.sendBow d mask) := by
  unfold State.sendBow
  split
  · exact setPlu s _
  · exact enqueue s _

theorem reversalFourth (s : State) (contacts : List Nat) : State.NotesOnly s (s.reversalFourth contacts) := by
  unfold State.reversalFourth
  dsimp only
  split <;> split
  · exact setPlu s _
  · exact (setPlu s _).trans (sendBow _ _ _)
  · exact (withdrawBow s).trans (setPlu _ _)
  · exact ((withdrawBow s).trans (setPlu _ _)).trans (sendBow _ _ _)

theorem reversalThird (contacts : List Nat) (later : List (Nat × List NoteRequest)) (s : State) :
    State.NotesOnly s (State.reversalThird contacts later s) := by
  induction later generalizing s with
  | nil => exact reversalFourth s contacts
  | cons p later ih =>
    obtain ⟨c, rs⟩ := p
    have h := sendRequests c rs s
    unfold State.reversalThird
    split <;> (rename_i heq; rw [heq] at h)
    · exact h.trans (ih _)
    · exact h.trans (setPlu _ _)

theorem reversalFirst (s : State) (found : List Reversed) : State.NotesOnly s (s.reversalFirst found) :=
  ((setNrs s _).trans (setPlu _ _)).trans (countMisses _ _)

theorem reversal (s : State) : State.NotesOnly s s.reversal :=
  ((reversalFirst s _).trans (foldl releaseUnmatched _ _)).trans (reversalThird _ _ _)

theorem appendRecord (s : State) (contact ordinal : Nat) (pair : PairName) (state : RecordState) :
    State.NotesOnly s (s.appendRecord contact ordinal pair state) := rfl

theorem takePress (s : State) (contact ordinal : Nat) (kind : ButtonKind) (shiftHeld : Bool) :
    State.NotesOnly s (s.takePress contact ordinal kind shiftHeld) := by
  unfold State.takePress
  split
  · exact refl s
  · split
    · exact countHeldOverflow s
    · dsimp only
      split
      · split
        · exact appendRecord s _ _ _ _
        · exact (appendRecord s _ _ _ _).trans (placeRecord _ contact)
      · exact appendRecord s _ _ _ _

theorem takeRelease (s : State) (contact : Nat) : State.NotesOnly s (s.takeRelease contact) := by
  unfold State.takeRelease
  split
  · exact refl s
  · exact (foldl (fun t => releaseHolder t .normal) _ s).trans (setPlu _ _)

theorem takeEvent (s : State) (e : PlacementEvent) : State.NotesOnly s (s.takeEvent e) := by
  cases e with
  | press c n kind shiftHeld => exact takePress s c n kind shiftHeld
  | release c => exact takeRelease s c
  | turn => exact reversal s
  | fall => exact takeFall s
  | breathExpiry => exact fade s

theorem placementEvent (s : State) (e : PlacementEvent) : State.NotesOnly s (s.placementEvent e) := by
  unfold State.placementEvent
  split
  · split
    · exact setPlu s _
    · exact takeEvent s e
  · exact refl s

theorem takeHeld (es : List PlacementEvent) (s : State) : State.NotesOnly s (State.takeHeld es s) := by
  induction es generalizing s with
  | nil => exact setPlu s _
  | cons e es ih =>
    unfold State.takeHeld
    dsimp only
    split
    · exact (setPlu s _).trans (takeEvent _ e)
    · exact ((setPlu s _).trans (takeEvent _ e)).trans (ih _)

theorem afterOperation (s : State) : State.NotesOnly s s.afterOperation := by
  unfold State.afterOperation
  split
  · exact refl s
  · dsimp only
    split
    · exact placeAll _ s
    · exact (placeAll _ s).trans (takeHeld _ _)

theorem continueOperation (s : State) (op : Operation) : State.NotesOnly s (s.continueOperation op) := by
  have h := sendRequests op.record op.requests s
  unfold State.continueOperation
  split <;> (rename_i heq; rw [heq] at h)
  · exact h.trans (setPlu _ _)
  · split
    · exact h
    · exact h.trans (reversalThird _ _ _)

theorem answered (s : State) (op : Operation) (tag : Option Nat) : State.NotesOnly s (s.answered op tag) := by
  unfold State.answered
  cases tag with
  | none => exact ((setPlu s _).trans (continueOperation _ op)).trans (afterOperation _)
  | some t =>
    exact (((setPlu s _).trans (appendTag _ op.record t)).trans (continueOperation _ op)).trans (afterOperation _)

theorem answeredByPanic (s : State) : State.NotesOnly s s.answeredByPanic := (setPlu s _).trans (afterOperation _)

theorem retryWaiting (s : State) : State.NotesOnly s s.retryWaiting := by
  unfold State.retryWaiting
  split
  · exact refl s
  · rename_i r _
    dsimp only
    split
    · exact ((setNrs s _).trans (countUnplaced _)).trans (answeredByPanic _)
    · have h := (setNrs s { s.nrs with waiting := none, answerOwed := false }).trans (answerRequest _ r)
      revert h
      generalize State.answerRequest _ r = x
      intro h
      obtain ⟨a, s2⟩ := x
      simp only [State.setNrs_plu]
      cases s.plu.suspended with
      | none => exact h
      | some op =>
        cases a with
        | tag t => exact h.trans (answered _ _ _)
        | unplaced => exact h.trans (answered _ _ _)
        | waits => exact h

theorem levelRise (s : State) : State.NotesOnly s s.levelRise := by
  unfold State.levelRise
  dsimp only
  split
  · split
    · exact (setPlu s _).trans (setPlu _ _)
    · exact ((setPlu s _).trans (setPlu _ _)).trans (placeAll _ _)
  · exact setPlu s _

theorem groupChange (s : State) (turned rose fell : Bool) : State.NotesOnly s (s.groupChange turned rose fell) := by
  unfold State.groupChange
  split
  · cases rose <;> cases turned <;> cases fell <;> simp only [if_true, if_false, Bool.false_eq_true]
    · exact refl s
    · exact placementEvent s _
    · exact placementEvent s _
    · exact (placementEvent s _).trans (placementEvent _ _)
    · exact levelRise s
    · exact (levelRise s).trans (placementEvent _ _)
    · exact (levelRise s).trans (placementEvent _ _)
    · exact ((levelRise s).trans (placementEvent _ _)).trans (placementEvent _ _)
  · exact refl s

theorem panic (s : State) : State.NotesOnly s s.panic := by
  unfold State.panic
  split
  · exact (setPlu s _).trans (rosterPanic _)
  · exact refl s

end State.NotesOnly

end Sys2Proof.Machine
end

