-- ==== Sys2Proof/Laws/Link.lean ====
section
/-! SUPPORT. What the operations of the note queue, the update table and the Level Unit do, once each. -/

namespace Sys2Proof.Machine

/-! ## The note queue -/

/-- What `mapQueue` does, and with it `enqueue`, `withdrawTag`, `withdrawBow` and `replaceTag`. -/
theorem State.mapQueue_eq (s : State) (f : List QueueItem → List QueueItem) :
    s.mapQueue f = { s with lkc := { s.lkc with noteQueue := f s.lkc.noteQueue } } := rfl

theorem State.enqueue_eq (s : State) (f : NoteFrame) :
    s.enqueue f = { s with lkc := { s.lkc with noteQueue := s.lkc.noteQueue ++ [⟨f, 0⟩] } } := rfl

theorem State.withdrawTag_eq (s : State) (tag : Nat) :
    s.withdrawTag tag =
      { s with lkc := { s.lkc with noteQueue := s.lkc.noteQueue.filter fun i => i.frame.tag? != some tag } } := rfl

theorem State.withdrawBow_eq (s : State) :
    s.withdrawBow = { s with lkc := { s.lkc with noteQueue := s.lkc.noteQueue.filter fun i => !i.frame.isBow } } := rfl

theorem State.holdWithdrawal_eq (s : State) (held : Bool) :
    s.holdWithdrawal held =
      { s with lkc := { s.lkc with tx := s.lkc.tx.map fun a => { a with withdraw := held } } } := rfl

theorem State.queueInFlight_iff {s : State} :
    s.queueInFlight = true ↔ ∃ a, s.lkc.tx = some a ∧ a.source = .queueHead := by
  unfold State.queueInFlight
  cases s.lkc.tx with
  | none => simp
  | some a => simp

theorem State.tagInFlight_iff {s : State} {tag : Nat} : s.tagInFlight tag = true ↔
    s.queueInFlight = true ∧ ∃ q, s.lkc.noteQueue.head? = some q ∧ q.frame.tag? = some tag := by
  unfold State.tagInFlight
  cases s.lkc.noteQueue <;> simp

/-! ## The update table -/

@[simp] theorem UpdateTable.get_put_self (t : UpdateTable) (key : TableKey) (e : Option TableEntry) :
    (t.put key e).get key = e := by
  cases key <;> simp [UpdateTable.put, UpdateTable.get]

theorem UpdateTable.get_put_ne (t : UpdateTable) {key key' : TableKey} (e : Option TableEntry) (h : key ≠ key') :
    (t.put key e).get key' = t.get key' := by
  cases key <;> cases key' <;>
    first
    | exact absurd rfl h
    | rfl
    | (rename_i j k
       have hjk : j ≠ k := fun g => h (by rw [g])
       simp [UpdateTable.put, UpdateTable.get, hjk])

/-- What `writeEntry` does to the table: the entry of its key holds the value with failure count 0. -/
@[simp] theorem State.writeEntry_updates (s : State) (key : TableKey) (f : OutFrame) :
    (s.writeEntry key f).lkc.updates = s.lkc.updates.put key (some ⟨f, 0⟩) := by
  unfold State.writeEntry
  dsimp only
  split <;> rfl

/-- What `writeEntry` does: the table's entry, and, where the entry is in flight, the attempt's record of it. -/
theorem State.writeEntry_eq (s : State) (key : TableKey) (f : OutFrame) :
    s.writeEntry key f = { s with lkc := { s.lkc with
      updates := s.lkc.updates.put key (some ⟨f, 0⟩)
      tx := if s.keyInFlight key then s.lkc.tx.map fun a => { a with rewritten := true, withdraw := false }
        else s.lkc.tx } } := by
  unfold State.writeEntry
  dsimp only
  split <;> rfl

theorem State.removeEntry_eq (s : State) (key : TableKey) :
    s.removeEntry key = { s with lkc := { s.lkc with
      updates := if s.keyInFlight key then s.lkc.updates else s.lkc.updates.put key none
      tx := if s.keyInFlight key then s.lkc.tx.map fun a => { a with withdraw := true }
        else s.lkc.tx } } := by
  unfold State.removeEntry
  split <;> rfl

/-! ## What the Level Unit changes -/

/-- `t` differs from `s` only in the Level Unit, the update table and the attempt in flight, whose frame and source
stand. -/
def State.LevelsOnly (s t : State) : Prop :=
  t = { s with lvu := t.lvu, lkc := { s.lkc with updates := t.lkc.updates, tx := t.lkc.tx } } ∧
    t.lkc.tx.map (fun a => (a.source, a.frame, a.failures)) = s.lkc.tx.map fun a => (a.source, a.frame, a.failures)

namespace State.LevelsOnly

theorem refl (s : State) : State.LevelsOnly s s := ⟨rfl, rfl⟩

theorem trans {s t u : State} (h : State.LevelsOnly s t) (g : State.LevelsOnly t u) : State.LevelsOnly s u := by
  refine ⟨?_, g.2.trans h.2⟩
  have h1 := h.1
  have g1 := g.1
  rw [g1, h1]

theorem nrs_eq {s t : State} (h : State.LevelsOnly s t) : t.nrs = s.nrs := by rw [h.1]
theorem plu_eq {s t : State} (h : State.LevelsOnly s t) : t.plu = s.plu := by rw [h.1]
theorem stc_eq {s t : State} (h : State.LevelsOnly s t) : t.stc = s.stc := by rw [h.1]
theorem noteQueue_eq {s t : State} (h : State.LevelsOnly s t) : t.lkc.noteQueue = s.lkc.noteQueue := by rw [h.1]
theorem notesOnly {s t : State} (h : State.LevelsOnly s t) : State.NotesOnly s t := by
  rw [State.notesOnly_iff, h.1]
  simp

theorem queueInFlight_eq {s t : State} (h : State.LevelsOnly s t) : t.queueInFlight = s.queueInFlight := by
  have h2 := h.2
  unfold State.queueInFlight
  cases ht : t.lkc.tx <;> cases hs : s.lkc.tx <;> simp_all

theorem tagInFlight_eq {s t : State} (h : State.LevelsOnly s t) (tag : Nat) : t.tagInFlight tag = s.tagInFlight tag := by
  unfold State.tagInFlight
  rw [h.queueInFlight_eq, h.noteQueue_eq]

theorem foldl {α : Type} {f : State → α → State} (hf : ∀ s a, State.LevelsOnly s (f s a)) (l : List α) (s : State) :
    State.LevelsOnly s (l.foldl f s) := by
  induction l generalizing s with
  | nil => exact refl s
  | cons a l ih => exact (hf s a).trans (ih _)

theorem setLvu (s : State) (x : LevelUnit) : State.LevelsOnly s (s.setLvu x) := ⟨rfl, rfl⟩

theorem writeEntry (s : State) (key : TableKey) (f : OutFrame) : State.LevelsOnly s (s.writeEntry key f) := by
  rw [State.writeEntry_eq]
  refine ⟨rfl, ?_⟩
  dsimp only
  split <;> cases s.lkc.tx <;> rfl

theorem removeEntry (s : State) (key : TableKey) : State.LevelsOnly s (s.removeEntry key) := by
  rw [State.removeEntry_eq]
  refine ⟨rfl, ?_⟩
  dsimp only
  split <;> cases s.lkc.tx <;> rfl

theorem writeLevel (s : State) (k : Slot) : State.LevelsOnly s (s.writeLevel k) :=
  (writeEntry s _ _).trans (setLvu _ _)

theorem examineLevel (s : State) (k : Slot) : State.LevelsOnly s (s.examineLevel k) := by
  unfold State.examineLevel
  split
  · exact writeLevel s k
  · exact refl s

theorem recomputeLevels (s : State) : State.LevelsOnly s s.recomputeLevels :=
  (setLvu s _).trans (foldl examineLevel _ _)

theorem restartLevel (s : State) (k : Slot) : State.LevelsOnly s (s.restartLevel k) := by
  unfold State.restartLevel
  split
  · exact (writeLevel s k).trans (setLvu _ _)
  · exact refl s

theorem restartLevels (s : State) : State.LevelsOnly s s.restartLevels :=
  foldl restartLevel _ _

theorem removeLevel (s : State) (k : Slot) : State.LevelsOnly s (s.removeLevel k) := by
  unfold State.removeLevel
  split
  · exact refl s
  · split
    · exact (removeEntry s _).trans (setLvu _ _)
    · exact removeEntry s _

theorem levelRises (s : State) (k : Slot) : State.LevelsOnly s (s.levelRises k) := by
  unfold State.levelRises
  dsimp only
  split
  · exact ((setLvu s _).trans (setLvu _ _)).trans (writeLevel _ k)
  · exact setLvu s _

theorem reportCount (s : State) (k : Slot) : State.LevelsOnly s (s.reportCount k) := by
  unfold State.reportCount
  dsimp only
  split
  · exact (setLvu s _).trans (levelRises _ k)
  · split
    · exact (setLvu s _).trans (removeLevel _ k)
    · exact setLvu s _

end State.LevelsOnly

/-! ## The section levels and the counts -/

@[simp] theorem State.writeLevel_sectionLevel (s : State) (k : Slot) :
    (s.writeLevel k).lvu.sectionLevel = s.lvu.sectionLevel := rfl

@[simp] theorem State.writeLevel_slotCount (s : State) (k : Slot) : (s.writeLevel k).lvu.slotCount = s.lvu.slotCount :=
  rfl

@[simp] theorem State.examineLevel_sectionLevel (s : State) (k : Slot) :
    (s.examineLevel k).lvu.sectionLevel = s.lvu.sectionLevel := by
  unfold State.examineLevel
  split <;> rfl

@[simp] theorem State.examineLevel_slotCount (s : State) (k : Slot) :
    (s.examineLevel k).lvu.slotCount = s.lvu.slotCount := by
  unfold State.examineLevel
  split <;> rfl

@[simp] theorem LevelUnit.momentPasses_sectionLevel (l : LevelUnit) : l.momentPasses.sectionLevel = l.sectionLevel := rfl
@[simp] theorem LevelUnit.momentPasses_slotCount (l : LevelUnit) : l.momentPasses.slotCount = l.slotCount := rfl
@[simp] theorem LevelUnit.momentPasses_lastSent (l : LevelUnit) : l.momentPasses.lastSent = l.lastSent := rfl
@[simp] theorem LevelUnit.momentPasses_threshold (l : LevelUnit) : l.momentPasses.threshold = l.threshold := rfl
@[simp] theorem LevelUnit.momentPasses_removalPending (l : LevelUnit) :
    l.momentPasses.removalPending = l.removalPending := rfl

/-- When a slot is due: at any change where a restart report wrote its entry at this moment, and otherwise at a change by
the threshold or to an end. -/
theorem LevelUnit.due_iff (l : LevelUnit) (k : Slot) :
    l.due k = true ↔
      if l.justRestarted.get k = true then l.sectionLevel.get k ≠ l.lastSent.get k
      else l.threshold ≤ max (l.sectionLevel.get k) (l.lastSent.get k) - min (l.sectionLevel.get k) (l.lastSent.get k) ∨
        (l.sectionLevel.get k = 0 ∨ l.sectionLevel.get k = 127) ∧ l.sectionLevel.get k ≠ l.lastSent.get k := by
  unfold LevelUnit.due levelDue
  split
  · simp only [Bool.or_eq_true, Bool.and_eq_true, decide_eq_true_eq, beq_iff_eq, bne_iff_ne]
    omega
  · simp only [Bool.or_eq_true, Bool.and_eq_true, decide_eq_true_eq, beq_iff_eq, bne_iff_ne]

@[simp] theorem State.restartLevel_sectionLevel (s : State) (k : Slot) :
    (s.restartLevel k).lvu.sectionLevel = s.lvu.sectionLevel := by
  unfold State.restartLevel
  split <;> rfl

@[simp] theorem State.restartLevel_slotCount (s : State) (k : Slot) :
    (s.restartLevel k).lvu.slotCount = s.lvu.slotCount := by
  unfold State.restartLevel
  split <;> rfl

/-- A recomputation leaves the section levels of the group level and the registration. -/
theorem State.recomputeLevels_sectionLevel (s : State) : s.recomputeLevels.lvu.sectionLevel = s.sectionLevels := by
  simp [State.recomputeLevels, slots]

theorem State.recomputeLevels_slotCount (s : State) : s.recomputeLevels.lvu.slotCount = s.lvu.slotCount := by
  simp [State.recomputeLevels, slots]

theorem State.recomputeLevels_current (s : State) : s.recomputeLevels.SectionLevelsCurrent := by
  intro k
  rw [State.recomputeLevels_sectionLevel]
  have h := State.NotesOnly.recomputeLevels s
  simp only [State.sectionLevels, h.grf_eq, h.mst_eq]

@[simp] theorem State.removeLevel_sectionLevel (s : State) (k : Slot) :
    (s.removeLevel k).lvu.sectionLevel = s.lvu.sectionLevel := by
  unfold State.removeLevel
  split
  · rfl
  · split <;> simp [State.removeEntry_eq]

@[simp] theorem State.removeLevel_slotCount (s : State) (k : Slot) :
    (s.removeLevel k).lvu.slotCount = s.lvu.slotCount := by
  unfold State.removeLevel
  split
  · rfl
  · split <;> simp [State.removeEntry_eq]

/-- A report of a slot's count makes it the roster's count of the moment, and leaves the section levels. -/
theorem State.reportCount_lvu (s : State) (k : Slot) :
    (s.reportCount k).lvu.slotCount = s.lvu.slotCount.set k (s.nrs.count k) ∧
      (s.reportCount k).lvu.sectionLevel = s.lvu.sectionLevel := by
  unfold State.reportCount State.levelRises
  dsimp only
  split
  · split <;> exact ⟨rfl, rfl⟩
  · split
    · exact ⟨by simp, by simp⟩
    · exact ⟨rfl, rfl⟩

end Sys2Proof.Machine
end

