-- ==== Sys2Proof/Laws/Group.lean ====
section
/-! SUPPORT. What a group change, a recomputation of the limits, the evidence of a frame and an entry to FAULT do and
leave. -/

namespace Sys2Proof.Machine

/-! ## The group -/

/-- All that a new direction and level can do: they stand, and what notes pass through follows. -/
theorem State.setGroup_notesOnly (s : State) (d : Direction) (level : Nat) :
    State.NotesOnly { s with grf := { s.grf with direction := d, level := level } } (s.setGroup d level) := by
  unfold State.setGroup
  dsimp only
  split
  · split
    · exact (State.NotesOnly.recomputeLevels _).trans (State.NotesOnly.groupChange _ _ _ _)
    · exact State.NotesOnly.groupChange _ _ _ _
  · exact State.NotesOnly.refl _

theorem State.setGroup_grf (s : State) (d : Direction) (level : Nat) :
    (s.setGroup d level).grf = { s.grf with direction := d, level := level } :=
  (State.setGroup_notesOnly s d level).grf_eq

/-- The unit's values handed to the group: taken at a LOCAL station, left at a FOLLOW station. -/
theorem State.handBellows_cases (s : State) :
    (s.grf.sourceMode = .localUnit ∧ s.handBellows = s.setGroup s.blw.direction s.blw.level) ∨
      (s.grf.sourceMode = .follow ∧ s.handBellows = s) := by
  unfold State.handBellows
  cases s.grf.sourceMode <;> simp

/-- All that losing the source can do: LOST with L = 0 and the direction held, BELLOWS LOST, and what notes pass
through. -/
theorem State.sourceLost_notesOnly (s : State) :
    State.NotesOnly { s with
      stc := { s.stc with trouble := { s.stc.trouble with bellowsLost := true } }
      grf := { s.grf with freshness := .lost, staleTimer := none, lostTimer := none, level := 0 } } s.sourceLost :=
  State.setGroup_notesOnly _ _ _

/-- All that a report of the Peer Table can do to the Group Follower. -/
theorem State.followReport_cases (s : State) :
    (s.grf.sourceMode = .localUnit ∧ s.followReport = s) ∨
    (s.grf.sourceMode = .follow ∧
      ((∃ a, s.lowestCandidate = some a ∧ s.followReport = s.setGrf { s.grf with source := some a }) ∨
       (s.lowestCandidate = none ∧ s.grf.freshness = .lost ∧
         s.followReport = s.setGrf { s.grf with source := none }) ∨
       (s.lowestCandidate = none ∧ s.grf.freshness ≠ .lost ∧
         s.followReport = (s.setGrf { s.grf with source := none }).sourceLost))) := by
  unfold State.followReport
  cases s.grf.sourceMode with
  | localUnit => simp
  | follow =>
    cases h : s.lowestCandidate with
    | some a => simp
    | none => by_cases hf : s.grf.freshness = .lost <;> simp [hf]

/-! ## The registration -/

theorem State.adoptRegistration_notesOnly (s : State) (number : Nat) :
    State.NotesOnly { s with grf := { s.grf with registration := number } } (s.adoptRegistration number) :=
  State.NotesOnly.recomputeLevels _

/-- All that a register selection can do: it is not taken in LOADING and FAULT, and elsewhere its number stands and what
notes pass through follows. -/
theorem State.selectRegistration_cases (s : State) (number : Nat) :
    (s.working = false ∧ s.selectRegistration number = s) ∨
      (s.working = true ∧
        State.NotesOnly { s with grf := { s.grf with registration := number } } (s.selectRegistration number)) := by
  unfold State.selectRegistration
  cases h : s.working with
  | false => simp
  | true =>
    refine .inr ⟨rfl, ?_⟩
    simp only [if_true]
    split
    · exact (State.adoptRegistration_notesOnly s number).trans (State.NotesOnly.writeEntry _ _ _)
    · exact State.adoptRegistration_notesOnly s number

/-! ## The limits -/

/-- What a recomputation of the limits changes: the shares and the limits. -/
theorem State.recomputeLimits_ofu (s : State) : s.recomputeLimits =
    { s with ofu := { s.ofu with share := s.recomputeLimits.ofu.share, limit := s.recomputeLimits.ofu.limit } } := rfl

theorem State.recomputeLimits_current (s : State) : s.recomputeLimits.LimitsCurrent := by
  intro k
  simp [State.recomputeLimits]

theorem State.LimitsCurrent.of_notesOnly {s t : State} (h : State.NotesOnly s t) (hs : s.LimitsCurrent) :
    t.LimitsCurrent := by
  intro k
  rw [h.ofu_eq, h.ptb_eq]
  exact hs k

/-- All that a recomputation and its trims can do: the shares and limits are current, and what notes pass through. -/
theorem State.recomputeAndTrim_spec (s : State) : s.recomputeAndTrim.LimitsCurrent ∧
    State.NotesOnly { s with ofu := { s.ofu with
      share := s.recomputeAndTrim.ofu.share
      limit := s.recomputeAndTrim.ofu.limit } } s.recomputeAndTrim := by
  have h : State.NotesOnly s.recomputeLimits s.recomputeAndTrim := State.NotesOnly.trimAll _
  refine ⟨State.LimitsCurrent.of_notesOnly h (State.recomputeLimits_current s), ?_⟩
  rw [h.ofu_eq, ← State.recomputeLimits_ofu]
  exact h

/-! ## FAULT and deliveries -/

/-- All that an entry to FAULT does. -/
theorem State.enterFault_eq (s : State) (reason : FaultReason) : s.enterFault reason = { s with
    stc := { s.stc with station := .fault, faultReason := reason, joinTimer := none, drainTimer := none }
    stl := { s.stl with port := .idle }
    msc := { s.msc with scanTimer := none }
    blw := { s.blw with phase := .off, outstanding := false, sampleTimer := none, heartbeat := none }
    ofu := { s.ofu with livenessTimer := none }
    ptb := { s.ptb with presenceTimer := none }
    lkc := { s.lkc with tx := none, driven := [], linkDropTimer := none } } := rfl

/-- A delivery of a frame the command names. -/
theorem State.deliver_of_front {s : State} {p : RxFrame → Bool} {f : RxFrame} {rest : List RxFrame}
    (hw : s.working = true) (hf : s.lkc.rxBuffer = f :: rest) (hp : p f = true) :
    s.deliver p = (s.setLkc { s.lkc with rxBuffer := rest }).handOn f := by
  simp [State.deliver, hw, hf, hp]

/-- A delivery with no frame the command names changes nothing. -/
theorem State.deliver_of_none {s : State} {p : RxFrame → Bool}
    (h : s.working = false ∨ ∀ f rest, s.lkc.rxBuffer = f :: rest → p f = false) : s.deliver p = s := by
  unfold State.deliver
  split
  · rename_i hw
    split
    · rfl
    · rename_i f rest hf
      rcases h with h | h
      · rw [h] at hw
        exact absurd hw (by decide)
      · simp [h f rest hf]
  · rfl

/-- What the engine's evidence does. -/
theorem State.engineEvidence_eq (s : State) : s.engineEvidence = { s with
    stc := { s.stc with trouble := { s.stc.trouble with engineAbsent := false } }
    ofu := { s.ofu with engine := .live, livenessTimer := some (ms 2000) } } := rfl

/-- What writing the PRESENCE entry does. -/
theorem State.writePresence_notesOnly (s : State) :
    State.NotesOnly { s with ptb := { s.ptb with presenceTimer := some (ms 100) } } s.writePresence := by
  unfold State.writePresence
  have h := State.NotesOnly.writeEntry s .presence (.presence s.grf.ownGroup s.blw.settings.role
    s.grf.registrationMode s.stl.slotUse s.grf.registration s.stc.station s.stc.trouble)
  rw [State.notesOnly_iff] at *
  obtain ⟨h1, h2, h3, h4, h5, h6, h7, h8, h9, h10, h11⟩ := h
  exact ⟨h1, h2, h3, h4, h5, h6, h7, h8, h9, by simp [h10], h11⟩

/-- What writing the BELLOWS entry does. -/
theorem State.writeBellows_notesOnly (s : State) :
    State.NotesOnly { s with blw := { s.blw with heartbeat := some (ms 20) } } s.writeBellows := by
  unfold State.writeBellows
  have h := State.NotesOnly.writeEntry s .bellows (.bellows s.grf.ownGroup s.blw.direction s.blw.level
    s.blw.sensorLost)
  rw [State.notesOnly_iff] at *
  obtain ⟨h1, h2, h3, h4, h5, h6, h7, h8, h9, h10, h11⟩ := h
  exact ⟨h1, h2, h3, h4, h5, h6, by simp [h7], h8, h9, h10, h11⟩

end Sys2Proof.Machine
end

