-- ==== Sys2Proof/Laws/Events.lean ====
section
/-! SUPPORT. What debouncing and a scan, the evidence of a peer, a judged frame, a drop and the arbiter do, once each. -/

namespace Sys2Proof.Machine

/-! ## Debouncing -/

/-- What debouncing does to the contacts from index `i` on, and which transitions it accepts: each scanned contact is
debounced against its reading, every other stands, and the accepted indices rise. -/
theorem MatrixScanner.debounceFrom_spec (m : MatrixScanner) (closed : List Nat) (cs : List Contact) (i : Nat) :
    (m.debounceFrom closed i cs).1.length = cs.length ∧
      (∀ j, (h : j < cs.length) → (m.debounceFrom closed i cs).1[j]? =
        some (if m.scanned (i + j) then (cs[j].debounce m.debounceCount (closed.contains (i + j))).1 else cs[j])) ∧
      (∀ k, k ∈ (m.debounceFrom closed i cs).2 ↔ ∃ j, ∃ h : j < cs.length, k = i + j ∧ m.scanned k = true ∧
        (cs[j].debounce m.debounceCount (closed.contains k)).2 = true) ∧
      (m.debounceFrom closed i cs).2.Pairwise (· < ·) := by
  induction cs generalizing i with
  | nil => simp [MatrixScanner.debounceFrom]
  | cons c cs ih =>
    obtain ⟨h1, h2, h3, h4⟩ := ih (i + 1)
    have hlow : ∀ k ∈ (m.debounceFrom closed (i + 1) cs).2, i < k := by
      intro k hk
      obtain ⟨j, -, rfl, -⟩ := (h3 k).1 hk
      omega
    have hmem : ∀ (b : Bool), (k : Nat) → (m.scanned i = true → (c.debounce m.debounceCount (closed.contains i)).2 = b) →
        ((k = i ∧ m.scanned i = true ∧ b = true) ∨ k ∈ (m.debounceFrom closed (i + 1) cs).2 ↔
          ∃ j, ∃ h : j < (c :: cs).length, k = i + j ∧ m.scanned k = true ∧
            ((c :: cs)[j].debounce m.debounceCount (closed.contains k)).2 = true) := by
      intro b k hb
      constructor
      · rintro (⟨rfl, hs, rfl⟩ | hk)
        · exact ⟨0, by simp, by omega, hs, by simpa using hb hs⟩
        · obtain ⟨j, hj, rfl, hs, hd⟩ := (h3 k).1 hk
          refine ⟨j + 1, by simpa using hj, by omega, hs, by simpa using hd⟩
      · rintro ⟨j, hj, rfl, hs, hd⟩
        cases j with
        | zero =>
          left
          simp only [Nat.add_zero] at hs hd ⊢
          exact ⟨trivial, hs, by rw [← hb hs]; simpa using hd⟩
        | succ j =>
          right
          refine (h3 _).2 ⟨j, by simpa using hj, by omega, hs, by simpa using hd⟩
    rw [MatrixScanner.debounceFrom]
    dsimp only
    by_cases hs : m.scanned i = true
    · simp only [hs, if_true]
      refine ⟨by simp [h1], ?_, ?_, ?_⟩
      · intro j hj
        cases j with
        | zero => simp [hs]
        | succ j =>
          have := h2 j (by simpa using hj)
          simpa [Nat.add_assoc, Nat.add_comm 1 j] using this
      · intro k
        rw [← hmem (c.debounce m.debounceCount (closed.contains i)).2 k (fun _ => rfl)]
        split <;> simp_all
      · split
        · exact List.pairwise_cons.2 ⟨hlow, h4⟩
        · exact h4
    · simp only [hs, if_false, Bool.false_eq_true]
      refine ⟨by simp [h1], ?_, ?_, h4⟩
      · intro j hj
        cases j with
        | zero => simp [hs]
        | succ j =>
          have := h2 j (by simpa using hj)
          simpa [Nat.add_assoc, Nat.add_comm 1 j] using this
      · intro k
        rw [← hmem false k (fun h => absurd h hs)]
        simp

/-! ## Scans -/

@[simp] theorem MatrixScanner.startScan_contacts (m : MatrixScanner) : m.startScan.contacts = m.contacts := rfl
@[simp] theorem MatrixScanner.startScan_scanning (m : MatrixScanner) : m.startScan.scanning = true := rfl
@[simp] theorem MatrixScanner.stop_scanTimer (m : MatrixScanner) : m.stop.scanTimer = none := rfl
@[simp] theorem MatrixScanner.stop_contacts (m : MatrixScanner) : m.stop.contacts = m.contacts := rfl
@[simp] theorem MatrixScanner.stop_scanning (m : MatrixScanner) : m.stop.scanning = m.scanning := rfl

theorem State.mayScan_iff {s : State} : s.mayScan = true ↔
    s.stc.station = .run ∧ s.msc.scanTimer.running = true ∧ s.msc.scanning = false := by
  simp [State.mayScan, and_assoc]

theorem State.DeliveryOnly.of_notesOnly {s t : State} (h : State.NotesOnly s t) : State.DeliveryOnly s t := by
  unfold State.DeliveryOnly
  rw [h.msc_eq, h.grf_eq]
  exact h

theorem State.DeliveryOnly.trans {s t u : State} (h : State.DeliveryOnly s t) (g : State.DeliveryOnly t u) :
    State.DeliveryOnly s u := by
  unfold State.DeliveryOnly at *
  rw [State.notesOnly_iff] at *
  obtain ⟨h1, h2, h3, h4, h5, h6, h7, h8, h9, h10, h11⟩ := h
  obtain ⟨g1, g2, g3, g4, g5, g6, g7, g8, g9, g10, g11⟩ := g
  refine ⟨g1.trans h1, g2.trans h2, ?_, g4.trans h4, g5.trans h5, ?_, g7.trans h7, ?_, g9.trans h9, g10.trans h10, ?_⟩
  · rw [g3, h3]
  · rw [g6, h6]
  · rw [g8, h8]
  · rw [g11, h11]

theorem State.DeliveryOnly.foldl {f : State → Nat → State} (hf : ∀ s i, State.DeliveryOnly s (f s i)) (l : List Nat)
    (s : State) : State.DeliveryOnly s (l.foldl f s) := by
  induction l generalizing s with
  | nil => exact State.DeliveryOnly.of_notesOnly (State.NotesOnly.refl s)
  | cons i l ih => exact (hf s i).trans (ih _)

/-- All that delivering an accepted release can do. -/
theorem State.deliverRelease_only (s : State) (i : Nat) : State.DeliveryOnly s (s.deliverRelease i) := by
  unfold State.deliverRelease
  split
  · exact .of_notesOnly (State.NotesOnly.placementEvent s _)
  · exact .of_notesOnly (State.NotesOnly.placementEvent s _)
  · rfl
  · rfl
  · rfl

/-- All that delivering an accepted press can do. -/
theorem State.deliverPress_only (s : State) (i : Nat) : State.DeliveryOnly s (s.deliverPress i) := by
  unfold State.deliverPress
  dsimp only
  split
  · exact .of_notesOnly (State.NotesOnly.placementEvent s _)
  · exact .of_notesOnly (State.NotesOnly.placementEvent s _)
  · split
    · rcases State.selectRegistration_cases s (s.msc.button i).2 with ⟨-, h⟩ | ⟨-, h⟩
      · rw [h]
        rfl
      · unfold State.DeliveryOnly
        rw [h.msc_eq, h.grf_eq]
        exact h
    · rfl
  · rfl
  · rfl

/-- All that completing a scan can do: the contacts are those debouncing gives, the scan is no longer under way, and what
the deliveries change follows. -/
theorem State.finishScan_only (s : State) (closed : List Nat) :
    State.DeliveryOnly (s.setMsc { s.msc with
      contacts := (s.msc.debounceFrom closed 0 s.msc.contacts).1
      scanning := false }) (s.finishScan closed) :=
  (State.DeliveryOnly.foldl State.deliverRelease_only _ _).trans (State.DeliveryOnly.foldl State.deliverPress_only _ _)

/-- All that a SCAN_TIMER_EXPIRY can do while RESET is high. -/
theorem State.scanExpiry_cases (s : State) (scan : ScanPart) :
    s.scanExpiry scan = s ∨
      (∃ closed, scan = .whole closed ∧ s.mayScan = true ∧ s.scanExpiry scan = s.scan closed) ∨
      (scan = .start ∧ s.mayScan = true ∧ s.scanExpiry scan = s.setMsc s.msc.startScan) ∨
      ∃ closed, scan = .finish closed ∧ s.msc.scanning = true ∧ s.scanExpiry scan = s.finishScan closed := by
  cases scan with
  | whole closed => by_cases h : s.mayScan = true <;> simp [State.scanExpiry, h]
  | start => by_cases h : s.mayScan = true <;> simp [State.scanExpiry, h]
  | finish closed => by_cases h : s.msc.scanning = true <;> simp [State.scanExpiry, h]

/-! ## Evidence and reports -/

/-- All that a frame's evidence can do to the Peer Table: nothing for a sender that is no peer; otherwise the sender's
record, and a report where it changes what is known. -/
theorem State.peerEvidence_cases (s : State) (f : RxFrame) :
    (s.isPeerAddress f.sender = false ∧ s.peerEvidence f = s) ∨
    (s.isPeerAddress f.sender = true ∧ ∃ declared,
      (declared = match f.declaration with
        | some d => some d
        | none => if (s.ptb.peer f.sender).live then (s.ptb.peer f.sender).declared else none) ∧
      (s.peerEvidence f = s.setPeer f.sender ⟨true, some (ms 350), declared⟩ ∨
        s.peerEvidence f = (s.setPeer f.sender ⟨true, some (ms 350), declared⟩).peerReport)) := by
  unfold State.peerEvidence
  cases h : s.isPeerAddress f.sender with
  | false => simp
  | true =>
    right
    refine ⟨rfl, _, rfl, ?_⟩
    have key : ∀ (b : Bool) (t u : State), (if b = true then t else u) = t ∨ (if b = true then t else u) = u := by
      intro b t u
      cases b <;> simp
    simp only [if_true]
    exact key _ _ _

theorem State.isPeerAddress_iff {s : State} {a : Nat} :
    s.isPeerAddress a = true ↔ 1 ≤ a ∧ a ≤ 12 ∧ a ≠ s.stl.ownAddress := by
  simp [State.isPeerAddress, and_assoc]

/-! ## Frames judged and attempts ended -/

/-- All that line activity can do. -/
theorem State.receiveBits_cases (s : State) (rate : LinkRate) (bits : List Bool) (afterIdle : Bool) :
    s.receiveBits rate bits afterIdle = s ∨
    (afterIdle = true ∧ s.receives rate = true ∧ ∃ r, readFrame bits = some r ∧
      ((r.valid = false ∧ s.receiveBits rate bits afterIdle = s.countReceiveError) ∨
       (r.valid = true ∧
         s.receiveBits rate bits afterIdle = (if s.lkc.listening then s.settleRate rate else s).takeValid r.frame))) := by
  unfold State.receiveBits
  cases hr : afterIdle && s.receives rate with
  | false => simp
  | true =>
    cases hf : readFrame bits with
    | none => simp
    | some r =>
      right
      simp only [Bool.and_eq_true] at hr
      refine ⟨hr.1, hr.2, r, rfl, ?_⟩
      cases hv : r.valid <;> simp [hv]

/-- A frame is the station's own when it is the one read back from the bits the station drives. -/
theorem State.isOwn_iff {s : State} {f : RxFrame} :
    s.isOwn f = true ↔ ∃ d, readFrame s.lkc.driven = some d ∧ d.frame = f := by
  unfold State.isOwn
  cases readFrame s.lkc.driven <;> simp

/-- Taking the own transmission drops the bits kept for it once its attempt has ended, and nothing else. -/
theorem State.takeOwn_eq (s : State) : s.takeOwn =
    { s with lkc := { s.lkc with driven := if s.lkc.tx.isSome then s.lkc.driven else [] } } := by
  unfold State.takeOwn
  split <;> rfl

/-- What recording the outcome of an attempt does. -/
theorem State.recordDrop_eq (s : State) (o : AttemptOutcome) : s.recordDrop o =
    if o = .dropped then { s with
      stc := { s.stc with
        counters := { s.stc.counters with transmitFailures := min (s.stc.counters.transmitFailures + 1) 65535 }
        trouble := { s.stc.trouble with linkDrop := true } }
      lkc := { s.lkc with linkDropTimer := some (ms 1000) } }
    else s := rfl

/-- All that the end of an attempt can do. -/
theorem State.endAttempt_cases (s : State) (r : AttemptResult) :
    (s.lkc.tx = none ∧ s.endAttempt r = s) ∨
    ∃ a, s.lkc.tx = some a ∧
      (let s1 := s.setLkc { s.lkc with tx := none, driven := if r = .success then s.lkc.driven else [] }
       (a.source = .carried ∧ s.endAttempt r = s1) ∨
       (∃ key, a.source = .table key ∧ s.endAttempt r = (s1.endTableAttempt key a r).testDrain) ∨
       (a.source = .queueHead ∧ s.endAttempt r = (s1.endQueueAttempt a r).testDrain)) := by
  unfold State.endAttempt
  cases h : s.lkc.tx with
  | none => simp
  | some a =>
    right
    refine ⟨a, rfl, ?_⟩
    dsimp only
    cases a.source <;> simp

/-- The end event is the end that the bits tell, or nothing. -/
theorem State.attemptEnd_cases (s : State) (read : List Bool) :
    (attemptResult s.lkc.driven read = none ∧ s.attemptEnd read = s) ∨
    ∃ r, attemptResult s.lkc.driven read = some r ∧ s.attemptEnd read = s.endAttempt r := by
  unfold State.attemptEnd
  cases h : attemptResult s.lkc.driven read <;> simp

theorem State.mayTransmit_iff {s : State} : s.mayTransmit = true ↔
    s.working = true ∧ s.lkc.listening = false ∧ s.lkc.linkRate.isSome = true := by
  simp [State.mayTransmit, and_assoc]

/-- An idle moment finds an attempt in flight and does nothing, begins the attempt of the arbiter's choice, so that the
moment of a restart report is over, or begins none. -/
theorem State.idle_cases (s : State) :
    (s.lkc.tx.isSome = true ∧ s.idle = s) ∨
    (∃ a, s.lkc.tx = none ∧ s.mayTransmit = true ∧ s.lkc.choice = some a ∧
      s.idle = (s.setLvu s.lvu.momentPasses).setLkc { s.lkc with
        tx := some a
        driven := a.frame.bits s.stl.ownAddress }) ∨
    (s.lkc.tx = none ∧ (s.mayTransmit = true → s.lkc.choice = none) ∧
      s.idle = s.setLkc { s.lkc with tx := none, driven := [] }) := by
  unfold State.idle
  cases h : s.lkc.tx <;> cases g : s.mayTransmit <;> cases c : s.lkc.choice <;> simp [drivenBits]

/-! ## What the line said -/

/-- An attempt whose bits all read as sent has succeeded. -/
@[simp] theorem resultFrom_self (i : Nat) (sent : List Bool) : resultFrom i sent sent = some .success := by
  induction sent generalizing i with
  | nil => rfl
  | cons b sent ih => simp [resultFrom, ih]

@[simp] theorem attemptResult_self (sent : List Bool) : attemptResult sent sent = some .success :=
  resultFrom_self 0 sent

/-- The first bit read otherwise than sent ends the attempt. -/
theorem resultFrom_mismatch (p : List Bool) (b : Bool) (rest more : List Bool) (i : Nat) :
    resultFrom i (p ++ b :: rest) (p ++ (!b) :: more) =
      some (if b = true ∧ inArbitration (i + p.length) = true then .lostArbitration else .failure) := by
  induction p generalizing i with
  | nil => cases b <;> cases h : inArbitration i <;> simp [resultFrom, h]
  | cons c p ih =>
    have h : i + (c :: p).length = i + 1 + p.length := by
      simp only [List.length_cons]
      omega
    rw [h, ← ih (i + 1)]
    simp [resultFrom]

end Sys2Proof.Machine
end

