-- ==== Sys2Proof/Laws/Roster.lean ====
section
/-! SUPPORT. What ending an entry, releasing a holder and answering a request do, case by case, and that they leave the
held-button list except where a victim's tag leaves it. -/

namespace Sys2Proof.Machine

/-! ## Entries -/

/-- The entry that carries a tag, of a roster with distinct tags. -/
theorem NoteRoster.Lawful.find {n : NoteRoster} (h : n.Lawful) {e : RosterEntry} (he : e ∈ n.roster) :
    n.roster.find? (·.tag == e.tag) = some e := by
  obtain ⟨-, -, -, hp⟩ := h
  revert he
  generalize n.roster = l at hp
  induction l with
  | nil => simp
  | cons x l ih =>
    intro he
    rw [List.pairwise_cons] at hp
    rcases List.mem_cons.1 he with rfl | he
    · simp
    · have hx : x.tag ≠ e.tag := (hp.1 e he).1
      simp [hx, ih hp.2 he]

theorem State.entry?_mem {s : State} {tag : Nat} {e : RosterEntry} (h : s.entry? tag = some e) :
    e ∈ s.nrs.roster ∧ e.tag = tag := by
  unfold State.entry? at h
  exact ⟨List.mem_of_find?_eq_some h, by simpa using List.find?_some h⟩

/-- No entry is lost and no tag changed by a change of one entry that keeps its tag. -/
theorem State.mapEntry_tags (s : State) (tag : Nat) {f : RosterEntry → RosterEntry} (hf : ∀ e, (f e).tag = e.tag) :
    (s.mapEntry tag f).nrs.roster.map (·.tag) = s.nrs.roster.map (·.tag) := by
  unfold State.mapEntry
  simp only [State.setNrs_nrs, List.map_map]
  apply List.map_congr_left
  intro e _
  simp only [Function.comp]
  split <;> simp [hf]

/-! ## Ending -/

/-- All that ending an entry can do (R81): nothing, where no entry carries the tag or it is ENDING; hold the withdrawal
of a START or REFRESH-START in flight; withdraw a START and free the entry; put the NOTE END in the place of a
REFRESH-START; or queue the NOTE END. -/
theorem State.endEntry_cases (s : State) (tag : Nat) (a : EndArticulation) :
    (s.entry? tag = none ∧ s.endEntry tag a = s) ∨
    ∃ e, s.entry? tag = some e ∧
      ((e.state = .ending ∧ s.endEntry tag a = s) ∨
       ((e.state = .starting ∨ (e.state = .sounding ∧ e.queued = .refreshStart)) ∧ s.tagInFlight tag = true ∧
         s.endEntry tag a = ((s.mapEntry tag (·.toEnding a)).holdWithdrawal true).reportCount e.slot) ∨
       (e.state = .starting ∧ s.tagInFlight tag = false ∧
         s.endEntry tag a = ((s.withdrawTag tag).freeEntry tag).reportCount e.slot) ∨
       (e.state = .sounding ∧ e.queued = .refreshStart ∧ s.tagInFlight tag = false ∧
         s.endEntry tag a = (((s.mapEntry tag fun e => { e.toEnding a with queued := .stop }).replaceTag tag
           (.stop tag a)).countIfStolen a).reportCount e.slot) ∨
       (e.state = .sounding ∧ e.queued ≠ .refreshStart ∧
         s.endEntry tag a = ((s.mapEntry tag (·.toEnding a)).queueStop tag a).reportCount e.slot)) := by
  unfold State.endEntry
  cases h : s.entry? tag with
  | none => simp
  | some e =>
    right
    refine ⟨e, rfl, ?_⟩
    dsimp only
    cases hst : e.state with
    | ending => simp
    | starting =>
      cases hf : s.tagInFlight tag <;> simp
    | sounding =>
      cases hq : e.queued with
      | refreshStart => cases hf : s.tagInFlight tag <;> simp
      | noFrame => simp
      | start => simp
      | stop => simp

@[simp] theorem State.countIfStolen_plu (s : State) (a : EndArticulation) : (s.countIfStolen a).plu = s.plu := by
  unfold State.countIfStolen
  split <;> rfl

@[simp] theorem State.countIfStolen_nrs (s : State) (a : EndArticulation) : (s.countIfStolen a).nrs = s.nrs := by
  unfold State.countIfStolen
  split <;> rfl

@[simp] theorem State.countIfStolen_lkc (s : State) (a : EndArticulation) : (s.countIfStolen a).lkc = s.lkc := by
  unfold State.countIfStolen
  split <;> rfl

@[simp] theorem State.reportCount_plu (s : State) (k : Slot) : (s.reportCount k).plu = s.plu :=
  (State.LevelsOnly.reportCount s k).plu_eq

@[simp] theorem State.reportCount_nrs (s : State) (k : Slot) : (s.reportCount k).nrs = s.nrs :=
  (State.LevelsOnly.reportCount s k).nrs_eq

@[simp] theorem State.reportCount_stc (s : State) (k : Slot) : (s.reportCount k).stc = s.stc :=
  (State.LevelsOnly.reportCount s k).stc_eq

@[simp] theorem State.reportCount_noteQueue (s : State) (k : Slot) :
    (s.reportCount k).lkc.noteQueue = s.lkc.noteQueue :=
  (State.LevelsOnly.reportCount s k).noteQueue_eq

@[simp] theorem State.queueStop_plu (s : State) (tag : Nat) (a : EndArticulation) : (s.queueStop tag a).plu = s.plu := by
  simp [State.queueStop, State.enqueue, State.mapQueue, State.mapEntry]

/-- Ending an entry leaves the Placement Unit. -/
@[simp] theorem State.endEntry_plu (s : State) (tag : Nat) (a : EndArticulation) : (s.endEntry tag a).plu = s.plu := by
  rcases State.endEntry_cases s tag a with ⟨-, h⟩ | ⟨e, -, h⟩
  · rw [h]
  · rcases h with ⟨-, h⟩ | ⟨-, -, h⟩ | ⟨-, -, h⟩ | ⟨-, -, -, h⟩ | ⟨-, -, h⟩ <;> rw [h]
    · simp [State.holdWithdrawal, State.mapEntry]
    · simp [State.withdrawTag, State.mapQueue, State.freeEntry]
    · simp [State.replaceTag, State.mapQueue, State.mapEntry]
    · simp [State.mapEntry]

/-- Ending a victim takes its tag out of every tag list, and changes nothing else of the Placement Unit (R83). -/
theorem State.endVictim_plu (s : State) (tag : Nat) (a : EndArticulation) : (s.endVictim tag a).plu =
    { s.plu with held := s.plu.held.map fun r => { r with tags := r.tags.filter (· != tag) } } := by
  simp [State.endVictim, State.removeTag]

/-- All that a holder release can do (R82). -/
theorem State.releaseHolder_cases (s : State) (a : EndArticulation) (tag : Nat) :
    s.releaseHolder a tag = s ∨
    ∃ e, s.entry? tag = some e ∧ e.state ≠ .ending ∧
      s.releaseHolder a tag =
        (if e.holders ≤ 1 then (s.mapEntry tag fun e => { e with holders := e.holders - 1 }).endEntry tag a
         else s.mapEntry tag fun e => { e with holders := e.holders - 1 }) := by
  unfold State.releaseHolder
  cases h : s.entry? tag with
  | none => exact .inl rfl
  | some e =>
    dsimp only
    by_cases ha : e.active = true
    · right
      exact ⟨e, rfl, by simpa [RosterEntry.active] using ha, by simp [ha]⟩
    · left
      simp [ha]

@[simp] theorem State.releaseHolder_plu (s : State) (a : EndArticulation) (tag : Nat) :
    (s.releaseHolder a tag).plu = s.plu := by
  rcases State.releaseHolder_cases s a tag with h | ⟨e, -, -, h⟩ <;> rw [h]
  split
  · simp [State.mapEntry]
  · rfl

@[simp] theorem State.releaseAll_plu (a : EndArticulation) (tags : List Nat) (s : State) :
    (tags.foldl (State.releaseHolder · a) s).plu = s.plu := by
  induction tags generalizing s with
  | nil => rfl
  | cons t ts ih => simp [ih]

/-! ## Requests -/

@[simp] theorem State.newEntry_plu (s : State) (r : NoteRequest) (k : Slot) (pitch : Nat) :
    (s.newEntry r k pitch).2.plu = s.plu := by
  simp [State.newEntry, State.enqueue, State.mapQueue]

/-- The tags of the held records after a request is handled: none is added, and none but a victim's is removed. -/
theorem State.capacityStep_plu (s : State) (r : NoteRequest) (k : Slot) (pitch : Nat) :
    (s.capacityStep r k pitch).2.plu = s.plu ∨
      ∃ tag, (s.capacityStep r k pitch).2.plu =
        { s.plu with held := s.plu.held.map fun r => { r with tags := r.tags.filter (· != tag) } } := by
  unfold State.capacityStep
  split
  · exact .inl (by simp)
  · split
    · exact .inl rfl
    · rename_i v _
      right
      refine ⟨v.tag, ?_⟩
      dsimp only
      split <;> simp [State.endVictim_plu]

/-- The held records keep their contacts, ordinals, pairs, directions and states while a request is handled. -/
theorem State.answerRequest_held (s : State) (r : NoteRequest) :
    (s.answerRequest r).2.plu.held.map (fun r => { r with tags := [] }) =
        s.plu.held.map (fun r => { r with tags := [] }) ∧
      (s.answerRequest r).2.plu = { s.plu with held := (s.answerRequest r).2.plu.held } := by
  have hcap : ∀ (s : State) (k : Slot) (pitch : Nat),
      (s.capacityStep r k pitch).2.plu.held.map (fun r => { r with tags := [] }) =
          s.plu.held.map (fun r => { r with tags := [] }) ∧
        (s.capacityStep r k pitch).2.plu = { s.plu with held := (s.capacityStep r k pitch).2.plu.held } := by
    intro s k pitch
    rcases State.capacityStep_plu s r k pitch with h | ⟨tag, h⟩ <;> rw [h]
    · exact ⟨rfl, rfl⟩
    · simp
  have hnew : ∀ (k : Slot) (pitch : Nat),
      (s.newNote r k pitch).2.plu.held.map (fun r => { r with tags := [] }) =
          s.plu.held.map (fun r => { r with tags := [] }) ∧
        (s.newNote r k pitch).2.plu = { s.plu with held := (s.newNote r k pitch).2.plu.held } := by
    intro k pitch
    unfold State.newNote
    split
    · exact hcap s k pitch
    · split
      · exact ⟨rfl, rfl⟩
      · split
        · exact hcap s k pitch
        · rename_i v _
          obtain ⟨h1, h2⟩ := hcap (s.endVictim v.tag .stolen) k pitch
          rw [State.endVictim_plu] at h1 h2
          refine ⟨h1.trans (by simp), ?_⟩
          rw [h2]
  have hrev : ∀ e : RosterEntry, (s.revive r e).2.plu = s.plu := by
    intro e
    unfold State.revive
    split
    · dsimp only
      split <;> simp [State.mapEntry, State.withdrawTag, State.mapQueue, State.holdWithdrawal]
    · rfl
  have hall : (s.handleRequest r).2.plu.held.map (fun r => { r with tags := [] }) =
        s.plu.held.map (fun r => { r with tags := [] }) ∧
      (s.handleRequest r).2.plu = { s.plu with held := (s.handleRequest r).2.plu.held } := by
    unfold State.handleRequest
    split
    · exact ⟨rfl, rfl⟩
    · split
      · exact hnew _ _
      · split
        · exact ⟨rfl, rfl⟩
        · split
          · exact ⟨rfl, rfl⟩
          · rw [hrev]
            exact ⟨rfl, rfl⟩
  unfold State.answerRequest
  split
  · rename_i t heq
    rw [heq] at hall
    exact hall
  · exact hall

/-! ## Rosters grown and shrunk -/

/-- The first free tag is carried by no entry while the roster holds fewer than 256 (R73). -/
theorem NoteRoster.freeTag_spec (n : NoteRoster) (h : n.roster.length < 256) (hn : n.nextTag < 256) :
    n.freeTag < 256 ∧ ∀ e ∈ n.roster, e.tag ≠ n.freeTag := by
  unfold NoteRoster.freeTag
  set l := (List.range 256).map fun i => (n.nextTag + i) % 256 with hl
  have hmem : ∀ t < 256, t ∈ l := by
    intro t ht
    rw [hl, List.mem_map]
    exact ⟨(t + 256 - n.nextTag) % 256, by simp; omega, by omega⟩
  cases hf : l.find? fun t => n.roster.all (·.tag != t) with
  | some t =>
    have h1 := List.find?_some hf
    have h2 := List.mem_of_find?_eq_some hf
    rw [hl, List.mem_map] at h2
    obtain ⟨i, -, rfl⟩ := h2
    refine ⟨by simp; omega, ?_⟩
    intro e he
    simpa using List.all_eq_true.1 h1 e he
  | none =>
    exfalso
    rw [List.find?_eq_none] at hf
    have hsub : (List.range 256).Subset (n.roster.map (·.tag)) := by
      intro t ht
      have := hf t (hmem t (by simpa using ht))
      simp only [List.all_eq_true, bne_iff_ne, not_forall] at this
      obtain ⟨e, he, hne⟩ := this
      exact List.mem_map.2 ⟨e, he, by simpa using hne⟩
    have := (List.nodup_range.subperm hsub).length_le
    simp at this
    omega

end Sys2Proof.Machine
end

