-- ==== Sys2Proof/Tests/Slice0.lean ====
section
/-! SUPPORT. Tests of the model: the ill-formed terms that `wellFormed` refuses, small steps whose results stand in the
manual's text and worked cases, and for every statement with hypotheses a state that meets them (`witness_…`). -/

namespace Sys2Proof.Tests

open Sys2Proof.Machine

-- The tests are checked one after another: run together, their kernel evaluations take a thread each.
set_option Elab.async false

/-! ## Helpers -/

/-- The state after a command. -/
def after (c : Instr) (s : State) : State :=
  match exec c s with
  | .next t => t
  | .fault _ => s
  | .refused _ => s

/-- A station in RUN: address 5, group 2, FOLLOW, SHARED; one NOTE and one STACCATO NOTE for slot 1, which is detected
with range 55..96 and limit 8; contacts 0..5 TREBLE, 6 REGISTER, 7 SHIFT. -/
def base : State :=
  { State.reset with
    resetLow := false
    stc := { StationControl.reset with station := .run, trouble := ⟨false, true, false, false⟩ }
    stl := ⟨.idle, 5, 2#8⟩
    mst := ⟨[.note ⟨1, 60, .sustain, 1, 0⟩, .note ⟨1, 64, .staccato, 5, 0⟩, .empty, .aliasTo 0, .aliasTo 3,
      .chord ⟨1, 62, .sustain, 1, 0⟩ 0, .aliasTo 9],
      [[⟨0, none⟩, ⟨12, some 7⟩]],
      [⟨⟨0, 0, 1, 1#8⟩, ⟨0, 0, 1, 0#8⟩, ⟨1, 1, 2, 3#8⟩, 0, .all 64, .all 0⟩]⟩
    msc := ⟨1, 8, 1, 1, [⟨0, 6, .treble, 0⟩, ⟨6, 1, .register, 3⟩, ⟨7, 1, .shift, 0⟩], List.replicate 192 .reset, 0,
      some 1, false⟩
    grf := { GroupFollower.reset with ownGroup := 2, registrationMode := .shared }
    ofu := { OfferUnit.reset with
      table := (PerSlot.all none).set 1 (some ⟨55, 96, 8⟩)
      share := (PerSlot.all 0).set 1 8
      limit := (PerSlot.all 0).set 1 8
      engine := .live
      livenessTimer := some 9 }
    ptb := { PeerTable.reset with presenceTimer := some 200 }
    lkc := { LinkController.reset with linkRate := some .kbit1000 } }

/-- The station with a group level of 64 and the source PUSH. -/
def loud : State :=
  { base with
    grf := { base.grf with level := 64 }
    lvu := { base.lvu with sectionLevel := .all 64 } }

/-- A SOUNDING and a STARTING entry of slot 1, the START of the second waiting; contact 0 holds the first. -/
def held : State :=
  { loud with
    plu := { loud.plu with held := [⟨0, 0, .treble, .push, .placed, [0]⟩], holdTime := 50 }
    nrs := ⟨[⟨0, 1, 60, .sustain, 1, .sounding, .noFrame, none, none, false⟩,
      ⟨1, 1, 64, .staccato, 1, .starting, .start, none, some 8, false⟩], 2, none, false⟩
    lvu := { loud.lvu with slotCount := (PerSlot.all 0).set 1 2, lastSent := .all 64 }
    lkc := { loud.lkc with noteQueue := [⟨.start 1 1 64 64 .staccato, 0⟩] } }

/-- `held` with the START of its second entry in flight. -/
def inFlight : State :=
  { held with lkc := { held.lkc with
    tx := some ⟨.queueHead, .note (.start 1 1 64 64 .staccato), 0, false, false⟩
    driven := OutFrame.bits 5 (.note (.start 1 1 64 64 .staccato)) } }

/-- The station while a START in flight waits for its end: the entry is ENDING and the withdrawal held. -/
def ending (q : NoteFrame) (queued : QueuedFrame) (e : EndArticulation) (withdraw : Bool) : State :=
  { loud with
    nrs := ⟨[⟨1, 1, 64, .sustain, 1, .ending, queued, some e, none, false⟩], 2, none, false⟩
    lkc := { loud.lkc with
      noteQueue := [⟨q, 3⟩]
      tx := some ⟨.queueHead, .note q, 3, false, withdraw⟩
      driven := OutFrame.bits 5 (.note q) } }

/-- The station with a BOW in flight and another owed. -/
def bowing (owed : Option (Direction × SlotMask)) : State :=
  { loud with
    plu := { loud.plu with owedBow := owed }
    lkc := { loud.lkc with
      noteQueue := [⟨.bow .pull 2#8, 0⟩]
      tx := some ⟨.queueHead, .note (.bow .pull 2#8), 0, false, false⟩
      driven := OutFrame.bits 5 (.note (.bow .pull 2#8)) } }

/-- The station with a request that waits for a NOTE END in flight. -/
def waiting : State :=
  { loud with
    plu := { loud.plu with
      held := [⟨0, 0, .treble, .push, .placed, []⟩]
      suspended := some ⟨0, [], [], none⟩
      breathTimer := some 4 }
    nrs := ⟨[⟨0, 1, 60, .sustain, 1, .ending, .stop, some .normal, none, false⟩], 1,
      some ⟨60, 1, .sustain, 20, 0, .placement⟩, false⟩
    lkc := { loud.lkc with
      noteQueue := [⟨.stop 0 .normal, 0⟩]
      tx := some ⟨.queueHead, .note (.stop 0 .normal), 0, false, false⟩
      driven := OutFrame.bits 5 (.note (.stop 0 .normal)) } }

/-- The state after the end of an attempt whose bits all read as sent (R156). -/
def afterSuccess (s : State) : State :=
  after (.attemptEnd s.lkc.driven) s

/-- The state after the end of an attempt whose first preamble bit, sent recessive, read dominant: a failure (R156). -/
def afterFailure (s : State) : State :=
  after (.attemptEnd [false]) s

/-- The state after the end of an attempt whose second arbitration bit read dominant: lost, where the class sent is 1
or 3 (R156). -/
def afterLoss (s : State) : State :=
  after (.attemptEnd (s.lkc.driven.take 10 ++ [false])) s

/-- The station with frames in the receive buffer. -/
def received (s : State) (fs : List RxFrame) : State :=
  { s with lkc := { s.lkc with rxBuffer := fs } }

/-- The station in another state. -/
def inState (s : State) (x : StationState) : State :=
  { s with stc := { s.stc with station := x } }

/-- A LOADING station whose Start Loader waits as `p` says. -/
def loading (p : MemoryPort) : State :=
  { State.reset with resetLow := false, stl := { StartLoader.reset with port := p } }

/-- A bellows-role station in RUN and MEASURING with a conversion outstanding. -/
def bellows : State :=
  { base with
    stc := { base.stc with trouble := .empty }
    blw := { BellowsUnit.reset with
      settings := ⟨true, 0, 1, 40, 30, 2, [0, 20, 34, 46, 56, 65, 73, 80, 87, 93, 99, 104, 109, 114, 119, 123, 127], 4⟩
      phase := .measuring
      zero := 300
      outstanding := true
      sampleTimer := some 8
      heartbeat := some 40 }
    grf := { base.grf with sourceMode := .localUnit } }

/-- The same station in ZEROING, with samples. -/
def zeroing (n : Nat) (x : Int) (attempt : Nat) : State :=
  { bellows with blw := { bellows.blw with phase := .zeroing, attempt := attempt, samples := List.replicate n x } }

/-- A peer of address 3, LIVE, in the own group and of the bellows role, followed. -/
def following : State :=
  { base with
    stc := { base.stc with trouble := .empty }
    grf := { base.grf with source := some 3, freshness := .fresh, staleTimer := some 120, lostTimer := some 1000 }
    ptb := { base.ptb with peers := base.ptb.peers.set 2 ⟨true, some 700, some ⟨2, true, 0#8⟩⟩ } }

/-- A station that listens for the rate. -/
def listening : State :=
  { inState base .joining with lkc := { LinkController.reset with listening := true, listenTimer := some 600 } }

/-! ## Well-formedness -/

theorem test_wellFormed_refuses_contact_192 : (Instr.scanTimerExpiry (.whole [3, 192])).wellFormed = false ∧
    (Instr.scanTimerExpiry (.finish [192])).wellFormed = false := by decide
theorem test_wellFormed_takes_contact_191 : (Instr.scanTimerExpiry (.whole [0, 191])).wellFormed = true ∧
    (Instr.scanTimerExpiry .start).wellFormed = true := by decide
theorem test_wellFormed_refuses_tag_256 : (Instr.staccatoDeadlineExpiry 256).wellFormed = false := by decide
theorem test_wellFormed_refuses_address_0 : (Instr.peerExpiry 0).wellFormed = false := by decide
theorem test_wellFormed_refuses_address_13 : (Instr.peerExpiry 13).wellFormed = false := by decide
theorem test_wellFormed_refuses_168_bits :
    (Instr.frameReceived .kbit250 (List.replicate 168 true) true).wellFormed = false := by decide +kernel
theorem test_wellFormed_refuses_168_bits_read :
    (Instr.attemptEnd (List.replicate 168 true)).wellFormed = false := by decide +kernel
theorem test_wellFormed_refuses_a_long_image :
    (Instr.startRecordRead (List.replicate 32765 0#8)).wellFormed = false := by
  simp only [Instr.wellFormed, imageRestOk, List.length_replicate]
  decide
theorem test_no_word_spells_a_command : decodeTableWord 0 0 = none := rfl

/-! ## Start-up -/

/-- An image of 817 bytes with no map entry: address 5, group 2, the given flags and rate code, and zeros; then its
CRC. -/
def body (flags rate : Byte) : List Byte :=
  [0x03#8, 0x31#8, 5#8, 2#8, 0#8, 0#8, flags, rate] ++ List.replicate 807 0#8

def image (flags rate : Byte) : List Byte :=
  let crc := crcBytesFrom 0xFFFF#16 (body flags rate)
  body flags rate ++ [crc.extractLsb' 8 8, crc.extractLsb' 0 8]

theorem body_length (flags rate : Byte) : (body flags rate).length = 815 := by
  simp only [body, List.length_append, List.length_cons, List.length_nil, List.length_replicate]

theorem word16_halves (c : BitVec 16) : word16 (c.extractLsb' 8 8) (c.extractLsb' 0 8) = c := by
  unfold word16
  apply BitVec.eq_of_getLsbD_eq
  intro i hi
  simp only [BitVec.getLsbD_append, BitVec.getLsbD_extractLsb']
  split
  · simp [*]
  · have h : 8 + (i - 8) = i := by omega
    have h' : i - 8 < 8 := by omega
    simp [h, h']

theorem image_word (flags rate : Byte) :
    imageWord (image flags rate) 815 = crcBytesFrom 0xFFFF#16 (body flags rate) := by
  have h : ∀ (l : List Byte) (x y : Byte), l.length = 815 → imageWord (l ++ [x, y]) 815 = word16 x y := by
    intro l x y hl
    simp [imageWord, imageByte, List.getD, hl]
  rw [image, h _ _ _ (body_length flags rate), word16_halves]

theorem image_prefix (flags rate : Byte) : imagePrefix 815 (image flags rate) = body flags rate := by
  have h : (815 : Nat) = (body flags rate).length := (body_length flags rate).symm
  have hl : (image flags rate).length = 817 := by
    simp only [image, List.length_append, body_length, List.length_cons, List.length_nil]
  rw [imagePrefix_of_le (by omega), image, h, List.take_left']
  rfl

/-- The images are good records: the checks of R166 hold of them, the CRC's by their making. -/
theorem image_good (flags rate : Byte) : goodRecord (image flags rate) = true := by
  have h : ∀ i < 8, imageByte (image flags rate) i = imageByte (body flags rate) i := by
    intro i hi
    simp only [imageByte, image, List.getD_eq_getElem?_getD]
    rw [List.getElem?_append_left (by rw [body_length]; omega)]
  have h1 : recordLength (image flags rate) = 817 := by
    simp only [recordLength, imageWord, h 0 (by decide), h 1 (by decide)]
    show (word16 0x03#8 0x31#8).toNat = 817
    decide
  have h2 : mapCount (image flags rate) = 0 := by
    simp only [mapCount, imageWord, h 4 (by decide), h 5 (by decide)]
    show (word16 0#8 0#8).toNat = 0
    decide
  have h3 : imageNat (image flags rate) 2 = 5 := by
    simp only [imageNat, h 2 (by decide)]
    rfl
  have h4 : imageNat (image flags rate) 3 = 2 := by
    simp only [imageNat, h 3 (by decide)]
    rfl
  unfold goodRecord
  rw [h1, h2, h3, h4]
  simp only [Nat.reduceSub, image_word, image_prefix]
  simp [Config.memoryBytes]

/-! ## Witnesses and steps: the queue, RESET and start-up -/

theorem witness_EmptyQueueLetsTimersRunOn :
    base.pending = [] ∧ base.resetLow = false ∧ base.stc.station ≠ .fault := by decide +kernel
theorem witness_EmptyQueueLetsTimersRunOn_low_and_fault :
    State.reset.pending = [] ∧ State.reset.resetLow = true ∧ (inState base .fault).pending = [] ∧
    (inState base .fault).stc.station = .fault := by decide +kernel
theorem witness_ResetPinAndRisingEdge :
    State.reset.resetLow = true ∧ base.resetLow = false ∧ Instr.idleMoment ≠ .resetPinEvent ∧
    Instr.idleMoment ≠ .resetRisingEdge := by decide +kernel
theorem witness_ResetPin_fault : (inState base .fault).resetLow = false ∧ (inState base .fault).stc.station = .fault ∧
    Instr.joinTimerExpiry ≠ .resetPinEvent := by decide +kernel
theorem witness_ResetPin_fault_fits :
    (held.enterFault .addressConflict).resetLow = false ∧ (held.enterFault .addressConflict).stc.station = .fault ∧
    (held.enterFault .addressConflict).TimersFitStation ∧ (held.enterFault .addressConflict).lkc.tx = none := by
  unfold State.TimersFitStation
  decide +kernel
theorem test_pins_show_trouble_and_station :
    base.troublePin = true ∧ base.runPin = true ∧ base.faultPin = false ∧
    (inState { base with stc := { base.stc with trouble := .empty } } .fault).troublePin = false ∧
    (inState base .fault).faultPin = true := by decide +kernel
/-- In FAULT no counter moves and no timer acts: a broken frame is not counted, and a peer does not expire. -/
theorem test_nothing_acts_in_fault :
    (after (.frameReceived .kbit500 [false, true] true) (held.enterFault .addressConflict)).stc.counters =
      held.stc.counters ∧
    (after (.peerExpiry 3) (following.enterFault .addressConflict)).ptb.peers = following.ptb.peers := by decide +kernel
theorem test_rising_edge_enters_loading :
    (after .resetRisingEdge State.reset).stc.station = .loading ∧
    (after .resetRisingEdge State.reset).stl.port = .header := by decide +kernel
theorem witness_HeaderRead :
    (loading .header).resetLow = false ∧ (loading .header).stc.station = .loading ∧
    (loading .header).stl.port = .header ∧ base.stc.station ≠ .loading ∧
    (loading .idle).stl.port ≠ .header := by decide +kernel
theorem test_blank_image_is_fault :
    (after (.startRecordHeaderRead 0xFF#8 0xFF#8 0xFF#8 0xFF#8) (loading .header)).stc.faultReason = .blank := by
  decide +kernel
theorem test_header_of_three_ones_is_read_on :
    (after (.startRecordHeaderRead 0xFF#8 0xFF#8 0xFF#8 0#8) (loading .header)).stl.port =
      .record 0xFF#8 0xFF#8 0xFF#8 0#8 := by
  decide +kernel
theorem witness_BadRecord_long : (loading (.record 0x80#8 1#8 5#8 2#8)).resetLow = false ∧
    (loading (.record 0x80#8 1#8 5#8 2#8)).stc.station = .loading ∧
    (loading (.record 0x80#8 1#8 5#8 2#8)).stl.port = .record 0x80#8 1#8 5#8 2#8 ∧
    32768 < 256 * (0x80#8).toNat + (1#8).toNat := by decide +kernel
theorem witness_BadRecord_short : (loading (.record 0x03#8 0x34#8 5#8 2#8)).stl.port = .record 0x03#8 0x34#8 5#8 2#8 ∧
    (let img := [0x03#8, 0x34#8, 5#8, 2#8, 0#8, 1#8]
     256 * (0x03#8).toNat + (0x34#8).toNat <
       817 + 4 * (256 * (imageByte img 4).toNat + (imageByte img 5).toNat)) := by decide +kernel
theorem witness_BadRecord_address : (loading (.record 0x03#8 0x31#8 13#8 2#8)).stl.port =
      .record 0x03#8 0x31#8 13#8 2#8 ∧
    (loading (.record 0x03#8 0x31#8 0#8 2#8)).stl.port = .record 0x03#8 0x31#8 0#8 2#8 ∧ 12 < (13#8).toNat ∧
    (0#8).toNat < 1 := by decide +kernel
theorem witness_BadRecord_group : (loading (.record 0x03#8 0x31#8 12#8 5#8)).stl.port =
      .record 0x03#8 0x31#8 12#8 5#8 ∧
    (loading (.record 0x03#8 0x31#8 12#8 0#8)).stl.port = .record 0x03#8 0x31#8 12#8 0#8 ∧ 4 < (5#8).toNat ∧
    (0#8).toNat < 1 := by decide +kernel
theorem witness_BadRecord_count : (loading (.record 0x7F#8 0xFF#8 12#8 4#8)).stl.port =
      .record 0x7F#8 0xFF#8 12#8 4#8 ∧
    (let img := [0x7F#8, 0xFF#8, 12#8, 4#8, 0x10#8, 1#8]
     4096 < 256 * (imageByte img 4).toNat + (imageByte img 5).toNat) := by decide +kernel

/-- A record whose first CRC byte is not the computed one. -/
theorem witness_BadRecord_crc :
    let crc := crcBytesFrom 0xFFFF#16 (body 0#8 0#8)
    let img := body 0#8 0#8 ++ [~~~(crc.extractLsb' 8 8), crc.extractLsb' 0 8]
    imageWord img (817 - 2) ≠ crc16 (bytesToBits (imagePrefix (817 - 2) img)) := by
  intro crc img
  have hl : (body 0#8 0#8).length = 815 := body_length _ _
  have h1 : imageWord img 815 = word16 (~~~(crc.extractLsb' 8 8)) (crc.extractLsb' 0 8) := by
    simp [img, imageWord, imageByte, List.getD, hl]
  have h2 : imagePrefix 815 img = body 0#8 0#8 := by
    have hi : img.length = 817 := by
      simp only [img, List.length_append, hl, List.length_cons, List.length_nil]
    rw [imagePrefix_of_le (by omega), ← hl, List.take_left']
    rfl
  have h3 : crc16 (bytesToBits (body 0#8 0#8)) = crc := (crcBytesFrom_eq _ _).symm
  simp only [Nat.reduceSub]
  rw [h1, h2, h3]
  intro h
  have hb : (word16 (~~~(crc.extractLsb' 8 8)) (crc.extractLsb' 0 8)).getLsbD 15 = crc.getLsbD 15 := by rw [h]
  unfold word16 at hb
  rw [BitVec.getLsbD_append, BitVec.getLsbD_not, BitVec.getLsbD_extractLsb'] at hb
  cases hc : crc.getLsbD 15 <;> simp at hb
theorem test_short_record_is_bad :
    (after (.startRecordRead [0#8, 1#8]) (loading (.record 0x03#8 0x34#8 5#8 2#8))).stc.faultReason = .badRecord := by
  decide +kernel
theorem witness_GoodRecord : (loading (.record 0x03#8 0x31#8 5#8 2#8)).resetLow = false ∧
    (loading (.record 0x03#8 0x31#8 5#8 2#8)).stc.station = .loading ∧
    (loading (.record 0x03#8 0x31#8 5#8 2#8)).stl.port = .record 0x03#8 0x31#8 5#8 2#8 ∧
    goodRecord (0x03#8 :: 0x31#8 :: 5#8 :: 2#8 :: (image 1#8 3#8).drop 4) = true ∧
    goodRecord (0x03#8 :: 0x31#8 :: 5#8 :: 2#8 :: (image 0#8 0#8).drop 4) = true :=
  ⟨rfl, rfl, rfl, image_good 1#8 3#8, image_good 0#8 0#8⟩
theorem witness_GoodRecordEntersJoining_rates :
    rateOf [0#8, 0#8, 0#8, 0#8, 0#8, 0#8, 1#8, 3#8] = some .kbit1000 ∧
    rateOf [0#8, 0#8, 0#8, 0#8, 0#8, 0#8, 0#8, 5#8] = none ∧ roleOf [0#8, 0#8, 0#8, 0#8, 0#8, 0#8, 1#8] = true ∧
    roleOf [0#8, 0#8, 0#8, 0#8, 0#8, 0#8, 2#8] = false := by decide +kernel

/-- A LOADING station that a reload has brought there: it keeps the rate in use. -/
def reloaded (p : MemoryPort) : State :=
  { loading p with lkc := { LinkController.reset with linkRate := some .kbit500 } }

theorem witness_GoodRecordEntersJoining_kept_rate :
    (reloaded (.record 0x03#8 0x31#8 5#8 2#8)).resetLow = false ∧
    (reloaded (.record 0x03#8 0x31#8 5#8 2#8)).stc.station = .loading ∧
    (reloaded (.record 0x03#8 0x31#8 5#8 2#8)).lkc.linkRate = some .kbit500 ∧
    (loading (.record 0x03#8 0x31#8 5#8 2#8)).lkc.linkRate = none := by decide +kernel
/-- An entry of each kind, its bits written out from the map's table: a NOTE of slot 1, pitch 60, STACCATO, length code
0, offset −1; a CHORD of slot 7, pitch 127, template 5, SWELL, length code 15, offset 31; and an ALIAS to 4095. -/
theorem test_map_entries_are_read_from_their_bits :
    mapOf (List.replicate 5 0#8 ++ [3#8] ++ List.replicate 32 0#8 ++
      [0x4B#8, 0xC0#8, 0x43#8, 0xF0#8, 0xBF#8, 0xF5#8, 0xBD#8, 0xF0#8, 0xC0#8, 0#8, 0x0F#8, 0xFF#8]) =
      [.note ⟨1, 60, .staccato, 1, -1⟩, .chord ⟨7, 127, .swell, 15, 31⟩ 5, .aliasTo 4095] := by decide +kernel
theorem witness_SlotUseMask :
    exec .idleMoment base = .next base.idle ∧ base.idle.stl.slotUse = 2#8 := ⟨rfl, by decide +kernel⟩
theorem witness_ListenTimerExpiry :
    listening.resetLow = false ∧ listening.stc.station = .joining ∧ listening.lkc.listening = true ∧
    listening.lkc.listenTimer.running = true := by decide +kernel
theorem test_listen_expiry_is_1000 :
    (after .listenTimerExpiry listening).lkc.linkRate = some .kbit1000 ∧
    (after .listenTimerExpiry listening).stc.joinTimer = some (ms 350) := by decide +kernel

/-- A station in JOINING whose join timer runs. -/
def joining (s : State) : State :=
  { inState s .joining with stc := { s.stc with station := .joining, joinTimer := some 1 } }

/-- A station in RELOADING whose drain timer runs. -/
def reloading (s : State) : State :=
  { inState s .reloading with stc := { s.stc with station := .reloading, drainTimer := some 1 } }

theorem witness_JoinTimerExpiry :
    (joining base).resetLow = false ∧ (joining base).stc.station = .joining ∧
    (joining base).stc.joinTimer.running = true ∧ (joining bellows).blw.phase = .measuring := by decide +kernel
theorem test_join_expiry_enters_run :
    (after .joinTimerExpiry (joining base)).stc.station = .run ∧
    (after .joinTimerExpiry (joining base)).msc.scanTimer = some 1 := by decide +kernel
theorem witness_DrainEndsInLoading :
    (reloading base).resetLow = false ∧ (reloading base).stc.station = .reloading ∧
    (reloading base).stc.drainTimer.running = true := by decide +kernel
theorem witness_DrainEndsInLoading_attempts :
    (∃ a, (reloading (bowing none)).lkc.tx = some a ∧ a.source = .queueHead ∧ a.withdraw = false ∧ a.failures < 15) ∧
    attemptResult (reloading (bowing none)).lkc.driven (reloading (bowing none)).lkc.driven = some .success ∧
    attemptResult (reloading (bowing none)).lkc.driven [false] = some .failure ∧
    (reloading (bowing (some (.push, 6#8)))).plu.owedBow = some (.push, 6#8) ∧
    (reloading (ending (.stop 1 .panic) .stop .panic false)).lkc.noteQueue = [⟨.stop 1 .panic, 3⟩] ∧
    (reloading (ending (.stop 1 .panic) .stop .panic false)).nrs.waiting = none :=
  ⟨⟨_, rfl, rfl, rfl, by decide⟩, by decide +kernel, by decide +kernel, rfl, rfl, rfl⟩
theorem witness_DrainEndsInLoading_starts :
    (let s := reloading (ending (.start 1 1 64 64 .normal) .start .panic true)
     ∃ a e, s.lkc.tx = some a ∧ a.withdraw = true ∧ s.lkc.noteQueue = [⟨.start 1 1 64 64 .normal, 3⟩] ∧
       s.nrs.roster.find? (·.tag == 1) = some e ∧ e.state = .ending) ∧
    ∃ a e, (reloading inFlight).lkc.tx = some a ∧ a.withdraw = false ∧
      (reloading inFlight).nrs.roster.find? (·.tag == 1) = some e ∧ e.state = .starting :=
  ⟨⟨_, _, rfl, rfl, rfl, rfl, rfl⟩, _, _, rfl, rfl, rfl, rfl⟩
theorem test_last_end_of_the_drain_begins_loading :
    (afterSuccess (reloading (ending (.stop 1 .panic) .stop .panic false))).stc.station =
      .loading := by
  decide +kernel
theorem test_drain_expiry_begins_loading :
    (after .drainTimerExpiry (reloading held)).stc.station = .loading ∧
    (after .drainTimerExpiry (reloading held)).lkc.noteQueue = [] := by decide +kernel
theorem witness_AddressConflict :
    base.resetLow = false ∧ base.working = true ∧ base.lkc.listening = false ∧ base.lkc.linkRate = some .kbit1000 ∧
    1 ≤ base.stl.ownAddress ∧ base.stl.ownAddress ≤ 12 ∧ lengthOk 5 [1#8, 99#8].length = true := by decide +kernel
theorem witness_AddressConflict_driven :
    (∀ d, readFrame base.lkc.driven = some d → d.frame ≠ ⟨1, 5, 5, [1#8, 99#8]⟩) ∧
    (∀ d, readFrame inFlight.lkc.driven = some d → d.frame ≠ ⟨1, 5, 5, [1#8, 99#8]⟩) ∧
    listening.stc.station = .joining ∧ listening.lkc.listening = true ∧ listening.lkc.driven = [] := by
  refine ⟨?_, ?_, rfl, rfl, rfl⟩
  · intro d h
    have hn : readFrame base.lkc.driven = none := by decide +kernel
    rw [hn] at h
    exact absurd h (by simp)
  · intro d h
    have hk : ∀ x, readFrame inFlight.lkc.driven = some x → x.frame.kind ≠ 5 := by
      have hs : (readFrame inFlight.lkc.driven).all (fun x => x.frame.kind != 5) = true := by decide +kernel
      intro x hx
      simpa [hx] using hs
    intro hf
    exact hk d h (by rw [hf])
theorem test_address_conflict_while_listening_settles_the_rate_first :
    (after (.frameReceived .kbit250 (frameBits 1 5 5 [1#8, 99#8]) true) listening).stc.faultReason = .addressConflict ∧
    (after (.frameReceived .kbit250 (frameBits 1 5 5 [1#8, 99#8]) true) listening).lkc.linkRate = some .kbit250 := by
  decide +kernel
theorem test_address_conflict_is_fault :
    (after (.frameReceived .kbit1000 (frameBits 1 5 5 [1#8, 99#8]) true) base).stc.faultReason =
      .addressConflict := by
  decide +kernel
theorem witness_StoppedTimersDoNotExpire :
    State.reset.lkc.listenTimer = none ∧ State.reset.msc.scanTimer = none ∧ State.reset.msc.scanning = false ∧
    (State.reset.ptb.peer 3).expiry = none ∧
    ∀ e ∈ State.reset.nrs.roster, e.deadline = none := by decide +kernel

theorem witness_StoppedTimers_staccato :
    (∀ e ∈ held.nrs.roster, e.tag = 0 → e.deadline = none ∨ e.state = .ending) ∧
    (∀ e ∈ held.nrs.roster, e.tag = 9 → e.deadline = none ∨ e.state = .ending) ∧
    ¬ ∀ e ∈ held.nrs.roster, e.tag = 1 → e.deadline = none ∨ e.state = .ending := by decide +kernel

/-! ## Lookups, folding, offers and shares -/

theorem witness_LookupUsesActiveLayers :
    ((base.mst.registration 0).pair .bass).activeLayers = [] ∧
    ((base.mst.registration 0).pair .alt).activeLayers = [0, 1] := by decide +kernel
theorem witness_LookupCountsMisses :
    base.mst.map.length ≤ 7 ∧ base.mst.map[3]? = some (.aliasTo 0) ∧ base.mst.map[4]? = some (.aliasTo 3) ∧
    base.mst.map[6]? = some (.aliasTo 9) ∧ base.mst.map[2]? = some .empty ∧
    base.mst.map[5]? = some (.chord ⟨1, 62, .sustain, 1, 0⟩ 0) := by decide +kernel
theorem test_chord_gives_an_item_per_note :
    base.mst.reach 5 = some [⟨62, 0, 1, .sustain, 20, 0⟩, ⟨62, 12, 7, .sustain, 20, 0⟩] := by decide +kernel
theorem test_alias_to_alias_is_a_miss :
    base.mst.reach 4 = none ∧ base.mst.reach 3 = some [⟨60, 0, 1, .sustain, 20, 0⟩] := by decide +kernel
theorem witness_FoldLandsInTheRange :
    (55 : Nat) ≤ 96 ∧ (100 : Int) > 96 ∧ (54 : Int) < 55 ∧ (60 : Nat) ≤ 60 ∧ (63 : Nat) < 60 + 11 := by decide +kernel
/-- In the range 60..63, 98 lies three octaves above 62, and no octave of 100 lies in it. -/
theorem test_fold_into_a_narrow_range : fold 98 60 63 = 62 ∧ fold 100 60 63 = 63 := by decide +kernel
theorem test_fold_by_octaves : fold 100 55 96 = 88 ∧ fold 54 55 96 = 66 ∧ fold 61 60 60 = 60 := by decide +kernel
theorem test_polyphony_is_rounded_down :
    quantise 7 = 6 ∧ quantise 64 = 64 ∧ quantise 255 = 64 ∧ quantise 5 = 4 := by decide +kernel
theorem witness_ShareDividesThePolyphony :
    1 ≤ following.stl.ownAddress ∧ following.stl.ownAddress ≤ 12 ∧ following.ptb.declaring 1 = 1 := by decide +kernel
theorem witness_ShareDividesThePolyphony_lawful :
    following.PeersLawful := by
  refine ⟨by decide +kernel, ?_, by decide +kernel, ?_⟩
  · intro p hp
    have h : p = .absent ∨ p = ⟨true, some 700, some ⟨2, true, 0#8⟩⟩ := by
      revert p
      decide +kernel
    rcases h with rfl | rfl <;> simp [PeerRecord.Lawful, PeerRecord.absent, Timer.running]
  · intro h
    exact absurd h (by decide)
theorem witness_MagnitudeFollowsThePressure :
    bellows.blw.settings.deadBand ≤ 255 ∧ 1 ≤ bellows.blw.settings.smoothing ∧
    bellows.blw.settings.curve.length = 17 ∧ (∀ x ∈ bellows.blw.settings.curve, x ≤ 127) ∧
    bellows.blw.settings.curve.Pairwise (· ≤ ·) := by decide +kernel
theorem test_level_ends_of_the_curve :
    levelOf bellows.blw.settings 0 = 0 ∧ levelOf bellows.blw.settings 2007 = 127 := by decide +kernel

/-! ## Contacts and held records -/

/-- A station with a scan under way. -/
def scanning (s : State) : State :=
  { s with msc := { s.msc with scanning := true } }

theorem witness_ScanDebounces :
    base.resetLow = false ∧ base.stc.station = .run ∧ base.msc.scanTimer.running = true ∧ base.msc.scanning = false ∧
    7 / 12 < base.msc.driveCount ∧ 7 % 12 < base.msc.senseCount ∧ ¬8 % 12 < base.msc.senseCount ∧
    (scanning base).msc.scanning = true ∧ (scanning (reloading base)).msc.scanning = true ∧
    (scanning (reloading base)).stc.station = .reloading ∧ (scanning (inState base .fault)).working = false := by
  decide +kernel
theorem test_scan_presses_a_contact :
    ((after (.scanTimerExpiry (.whole [0, 8])) loud).msc.contacts.getD 0 ⟨false, 0⟩).pressed = true ∧
    ((after (.scanTimerExpiry (.whole [0, 8])) loud).msc.contacts.getD 8 ⟨false, 0⟩).pressed = false ∧
    (after (.scanTimerExpiry (.whole [0, 8])) loud).nrs.roster.length = 1 := by decide +kernel
/-- The scan that RUN began is completed in RELOADING, where its press makes a SPENT record (R22, R52). -/
theorem test_scan_begun_in_run_is_finished_in_reloading :
    (after (.scanTimerExpiry .start) loud).msc = { loud.msc with scanning := true } ∧
    (after (.scanTimerExpiry (.finish [0])) (scanning (reloading loud))).plu.held =
      [⟨0, 0, .treble, .push, .spent, []⟩] := by decide +kernel
/-- In FAULT the scan that RUN began is completed too: its contact is PRESSED, and no block takes the press. -/
theorem test_scan_begun_in_run_is_finished_in_fault :
    (after (.scanTimerExpiry (.finish [0, 6])) (scanning (inState loud .fault))).msc.contacts.take 2 =
      [⟨true, 0⟩, ⟨false, 0⟩] ∧
    (after (.scanTimerExpiry (.finish [0, 6])) (scanning (inState loud .fault))).plu.held = [] ∧
    (after (.scanTimerExpiry (.finish [0, 6])) (scanning (inState loud .fault))).grf.registration = 0 ∧
    (loud.enterFault .addressConflict).msc.scanning = false ∧
    ((scanning loud).enterFault .addressConflict).msc.scanning = true := by decide +kernel
theorem test_reset_pin_event_ends_a_scan :
    (after .resetPinEvent (scanning loud)).msc.scanning = false ∧
    (after .resetPinEvent (scanning loud)).plu.held = [] := by decide +kernel
/-- `base` has one drive line: line 1 stays inactive. -/
theorem test_drive_lines_above_the_count_are_inactive :
    (scanning base).drives 0 = true ∧ (scanning base).drives 1 = false ∧ base.drives 0 = false := by decide +kernel
theorem witness_TransitionsAreDelivered :
    base.msc.button 0 = (.treble, 0) ∧ base.msc.button 6 = (.register, 3) ∧ base.msc.button 7 = (.shift, 0) ∧
    base.msc.button 8 = (.noKind, 0) ∧ base.grf.registrationMode = .shared ∧ base.stc.station = .run ∧
    base.working = true ∧ (inState base .fault).working = false := by decide +kernel
/-- Index 3 is covered by both ranges and index 7 has ordinal 4095 in the second; that of index 8 would be 4096. -/
theorem test_first_covering_range_decides :
    let m := { base.msc with plan := [⟨0, 4, .treble, 10⟩, ⟨2, 190, .bass, 4090⟩] }
    m.button 3 = (.treble, 13) ∧ m.button 4 = (.bass, 4092) ∧ m.button 7 = (.bass, 4095) ∧
      m.button 8 = (.noKind, 0) := by decide +kernel
theorem test_register_selection_is_written_in_run :
    (base.selectRegistration 3).lkc.updates.registration = some ⟨.registration 2 3, 0⟩ ∧
    ((reloading base).selectRegistration 3).lkc.updates.registration = none ∧
    ((reloading base).selectRegistration 3).grf.registration = 3 := by decide +kernel
theorem witness_PressesAndReleases :
    base.playing = true ∧ waiting.plu.suspended.isSome = true ∧ base.plu.suspended = none ∧ base.grf.level = 0 ∧
    loud.grf.level ≠ 0 ∧ loud.stc.station = .run ∧ 0 ∈ held.plu.held.map (·.contact) ∧
    1 ∉ held.plu.held.map (·.contact) ∧ held.plu.held.length < 24 := by decide +kernel

/-- The station with 24 held records. -/
def crowded : State :=
  { loud with plu := { loud.plu with held := (List.range 24).map fun c => ⟨c, c, .treble, .push, .armed, []⟩ } }

theorem witness_PressesAndReleases_full :
    crowded.playing = true ∧ crowded.plu.suspended = none ∧ 24 ∉ crowded.plu.held.map (·.contact) ∧
    24 ≤ crowded.plu.held.length ∧ (reloading base).playing = true ∧
    (reloading base).stc.station = .reloading := by decide +kernel
theorem test_press_on_a_full_list_is_counted :
    (crowded.placementEvent (.press 24 0 .treble false)).stc.counters.heldOverflows = 1 := by decide +kernel
theorem witness_PressesAndReleases_record :
    held.plu.held.find? (·.contact == 0) = some ⟨0, 0, .treble, .push, .placed, [0]⟩ := by decide +kernel
/-- Ordinal 3 of the ALT pair, of stride 2 with base 1, reaches addresses 7 and 8, which lie above the map. -/
theorem test_placement_counts_its_misses :
    (loud.placementEvent (.press 1 3 .treble true)).stc.counters.mapMisses = 2 ∧
    (loud.placementEvent (.press 1 3 .treble true)).plu.held = [⟨1, 3, .alt, .push, .placed, []⟩] := by decide +kernel

/-- A request for slot `k` at a raw pitch. -/
def requestOf (k : Slot) (q : Int) : NoteRequest := ⟨q, k, .sustain, 20, 0, .placement⟩

/-- The state with slot 1 at limit 0. -/
def barred (s : State) : State :=
  { s with ofu := { s.ofu with limit := .all 0 } }

theorem witness_Requests_lawful : waiting.nrs.Lawful ∧ (ending (.stop 1 .normal) .stop .normal false).nrs.Lawful := by
  unfold NoteRoster.Lawful
  decide +kernel
theorem witness_Requests_effective : held.ofu.effective (requestOf 1 60).slot = some (1, ⟨55, 96, 8⟩) ∧
    held.ofu.effective 7 = some (1, ⟨55, 96, 8⟩) ∧ held.ofu.effective 0 = none := by decide +kernel
theorem witness_Requests_same_entry : (fold (requestOf 1 60).rawPitch 55 96).toNat = 60 ∧
    (⟨0, 1, 60, .sustain, 1, .sounding, .noFrame, none, none, false⟩ : RosterEntry) ∈ held.nrs.roster ∧
    (⟨0, 1, 60, .sustain, 1, .ending, .stop, some .normal, none, false⟩ : RosterEntry) ∈ waiting.nrs.roster ∧
    waiting.tagInFlight 0 = true ∧ (barred loud).ofu.limit.get 1 ≤ (barred loud).nrs.count 1 := by decide +kernel
theorem witness_Requests_unrevived :
    (let s := { barred (ending (.stop 1 .normal) .stop .normal false) with lkc := loud.lkc }
     (⟨1, 1, 64, .sustain, 1, .ending, .stop, some .normal, none, false⟩ : RosterEntry) ∈ s.nrs.roster ∧
       s.tagInFlight 1 = false ∧ s.ofu.limit.get 1 ≤ s.nrs.count 1) := by decide +kernel
theorem witness_Requests_new : loud.nrs.count 1 < loud.ofu.limit.get 1 ∧ loud.nrs.roster.length < 32 ∧
    (∀ e ∈ loud.nrs.roster, ¬(e.slot = 1 ∧ e.pitch = 60)) ∧ (barred loud).ofu.limit.get 1 = 0 := by decide +kernel
/-- `loud` with the first two entries of slot 1 at its limit: the oldest ENDING, the next SOUNDING. -/
def limited : State :=
  { loud with
    ofu := { loud.ofu with limit := (PerSlot.all 0).set 1 1 }
    nrs := ⟨[⟨0, 1, 60, .sustain, 0, .ending, .stop, some .normal, none, false⟩,
      ⟨1, 1, 64, .sustain, 1, .sounding, .noFrame, none, none, false⟩], 2, none, false⟩
    lkc := { loud.lkc with noteQueue := [⟨.stop 0 .normal, 0⟩] } }

/-- `loud` with a full roster: 31 ENDING entries of slot 5 behind one entry of slot 5 in the given state. -/
def full (x : NoteState) : State :=
  { loud with nrs := ⟨⟨0, 5, 0, .sustain, 1, x, if x = .starting then .start else .noFrame, none, none, false⟩ ::
    (List.range 31).map fun i => ⟨i + 1, 5, i + 1, .sustain, 0, .ending, .stop, some .normal, none, false⟩,
    32, none, false⟩ }

theorem witness_Requests_revived :
    (let s := { ending (.stop 1 .normal) .stop .normal false with lkc := loud.lkc }
     (⟨1, 1, 64, .sustain, 1, .ending, .stop, some .normal, none, false⟩ : RosterEntry) ∈ s.nrs.roster ∧
       s.tagInFlight 1 = false ∧ s.nrs.count 1 < s.ofu.limit.get 1) ∧
    (let s := ending (.start 1 1 64 64 .normal) .start .normal true
     (⟨1, 1, 64, .sustain, 1, .ending, .start, some .normal, none, false⟩ : RosterEntry) ∈ s.nrs.roster ∧
       s.queueInFlight = true ∧ s.nrs.count 1 < s.ofu.limit.get 1) := by decide +kernel
theorem witness_Requests_steal :
    limited.ofu.limit.get 1 ≠ 0 ∧ limited.nrs.count 1 = limited.ofu.limit.get 1 ∧
    ∀ e ∈ limited.nrs.roster, ¬(e.slot = 1 ∧ e.pitch = 67) := by decide +kernel
theorem witness_Requests_full :
    (full .sounding).nrs.roster.length = 32 ∧ (full .sounding).nrs.count 1 < (full .sounding).ofu.limit.get 1 ∧
    (full .ending).nrs.roster.length = 32 ∧ (∀ e ∈ (full .ending).nrs.roster, e.state = .ending) ∧
    (full .starting).tagInFlight 0 = false ∧ ∀ e ∈ (full .sounding).nrs.roster, ¬(e.slot = 1 ∧ e.pitch = 60) := by
  decide +kernel
theorem witness_Requests_full_lawful :
    (full .sounding).nrs.Lawful ∧ (full .ending).nrs.Lawful ∧ (full .starting).nrs.Lawful ∧ limited.nrs.Lawful := by
  unfold NoteRoster.Lawful
  decide +kernel
theorem witness_Requests_victims :
    (⟨0, 1, 60, .sustain, 1, .sounding, .noFrame, none, none, false⟩ : RosterEntry) ∈ held.nrs.roster ∧
    (⟨1, 1, 64, .staccato, 1, .starting, .start, none, some 8, false⟩ : RosterEntry) ∈ held.nrs.roster ∧
    held.tagInFlight 1 = false ∧ inFlight.tagInFlight 1 = true := by decide +kernel
theorem test_request_at_the_limit_steals_the_oldest_active :
    (limited.handleRequest (requestOf 1 67)).1 = .tag 2 ∧
    (limited.handleRequest (requestOf 1 67)).2.lkc.noteQueue =
      [⟨.stop 0 .normal, 0⟩, ⟨.stop 1 .stolen, 0⟩, ⟨.start 2 1 67 64 .normal, 0⟩] := by decide +kernel
theorem test_request_in_a_full_roster :
    (full .sounding).handleRequest (requestOf 1 60) = (.unplaced, (full .sounding).endVictim 0 .stolen) ∧
    ((full .starting).handleRequest (requestOf 1 60)).1 = .tag 32 := by decide +kernel
theorem test_request_merges : (held.handleRequest (requestOf 1 48)).1 = .tag 0 ∧
    ((held.handleRequest (requestOf 1 48)).2.nrs.roster.map (·.holders)) = [2, 1] := by decide +kernel
theorem test_request_follows_the_fallback_chain : (loud.handleRequest (requestOf 7 60)).2.lkc.noteQueue =
    [⟨.start 0 1 60 64 .normal, 0⟩] ∧ (loud.handleRequest (requestOf 0 60)).1 = .unplaced := by decide +kernel

/-! ## The bellows sensor -/

/-- `bellows` with `n` samples missed. -/
def missing (n : Nat) : State :=
  { bellows with blw := { bellows.blw with missed := n } }

theorem witness_SampleTimerExpiry :
    bellows.resetLow = false ∧ bellows.blw.phase ≠ .off ∧ bellows.blw.sampleTimer.running = true ∧
    (missing 6).blw.missed + 1 < 8 ∧ 8 ≤ (missing 7).blw.missed + 1 ∧ (missing 7).blw.sensorLost = false ∧
    (missing 7).blw.outstanding = true := by decide +kernel
theorem test_select_line_needs_the_role :
    bellows.sensorSelect = true ∧ { base with blw := { base.blw with outstanding := true } }.sensorSelect = false ∧
    { bellows with resetLow := true }.sensorSelect = false := by decide +kernel
theorem test_eighth_missed_sample_loses_the_sensor :
    (after .sampleTimerExpiry (missing 7)).blw.sensorLost = true ∧
    (after .sampleTimerExpiry (missing 6)).blw.sensorLost = false := by decide +kernel
theorem witness_SampleTimerExpiry_group :
    (missing 7).stc.station = .run ∧ (missing 7).blw.phase = .measuring ∧ (missing 7).grf.sourceMode = .localUnit ∧
    { missing 7 with grf := base.grf }.grf.sourceMode = .follow := by decide +kernel
theorem test_lost_sensor_silences_the_local_group :
    (after .sampleTimerExpiry { missing 7 with grf := { bellows.grf with level := 50 } }).grf.level = 0 ∧
    (after .sampleTimerExpiry (missing 7)).lkc.updates.bellows =
      some ⟨.bellows bellows.grf.ownGroup bellows.blw.direction 0 true, 0⟩ := by decide +kernel
theorem witness_MeasuringSample :
    bellows.resetLow = false ∧ bellows.blw.phase = .measuring ∧ bellows.blw.outstanding = true ∧
    bellows.stc.station = .run ∧ bellows.grf.sourceMode = .localUnit ∧
    base.grf.sourceMode = .follow := by decide +kernel
/-- p = floor((150 − 300) / 2) = −75 lies below −(40 + 30), and p = −70 does not. -/
theorem test_pull_beyond_the_hysteresis_turns :
    (after (.sensorSample 150#16 false) bellows).blw.direction = .pull ∧
    (after (.sensorSample 160#16 false) bellows).blw.direction = .push := by decide +kernel
/-- `held` at a LOCAL station: contact 0 holds a SOUNDING note of pitch 60 that both directions give. -/
def turning : State :=
  { held with blw := bellows.blw, grf := { held.grf with sourceMode := .localUnit } }

theorem witness_MeasuringSample_turn :
    turning.resetLow = false ∧ turning.blw.phase = .measuring ∧ turning.blw.outstanding = true ∧
    turning.playing = true ∧ turning.bowInFlight = false ∧ (bowing none).bowInFlight = true ∧
    held.nrs.roster.find? (·.tag == 0) = some ⟨0, 1, 60, .sustain, 1, .sounding, .noFrame, none, none, false⟩ ∧
    (turning.setGroup .pull 64).plu.held = [⟨0, 0, .treble, .pull, .placed, [0]⟩] := by decide +kernel
/-- The tag is kept, so nothing is released or requested, and the one note SOUNDING at the turn takes a BOW for slot 1. -/
theorem test_reversal_bows_a_kept_note :
    (turning.setGroup .pull 64).lkc.noteQueue = [⟨.start 1 1 64 64 .staccato, 0⟩, ⟨.bow .pull 2#8, 0⟩] := by
  decide +kernel
/-- Where the pull base gives another pitch, the old note is released with REVERSAL and the new one started as one. -/
theorem test_reversal_releases_and_requests :
    (({ turning with mst := { turning.mst with registrations :=
      [⟨⟨0, 5, 1, 1#8⟩, ⟨0, 0, 1, 0#8⟩, ⟨1, 1, 2, 3#8⟩, 0, .all 64, .all 0⟩] } } : State).setGroup .pull 64).lkc.noteQueue =
      [⟨.start 1 1 64 64 .staccato, 0⟩, ⟨.stop 0 .reversal, 0⟩, ⟨.start 2 1 62 64 .reversal, 0⟩,
        ⟨.start 3 1 74 64 .reversal, 0⟩] := by
  decide +kernel
theorem witness_ZeroingSample :
    (zeroing 15 300 8).blw.phase = .zeroing ∧ (zeroing 15 300 8).blw.outstanding = true ∧
    (zeroing 15 300 8).blw.samples.length = 15 ∧ (zeroing 3 300 1).blw.samples.length < 15 := by decide +kernel
/-- The mean 4816 / 16 of fifteen counts 300 and one of 316, with a spread of 16 within the tolerance of 80. -/
theorem test_quiet_attempt_sets_the_zero :
    (after (.sensorSample 316#16 false) (zeroing 15 300 1)).blw.zero = 301 ∧
    (after (.sensorSample 316#16 false) (zeroing 15 300 1)).blw.phase = .measuring := by decide +kernel
theorem test_noisy_attempt_is_repeated :
    (after (.sensorSample 381#16 false) (zeroing 15 300 7)).blw.attempt = 8 ∧
    (after (.sensorSample 381#16 false) (zeroing 15 300 8)).blw.zero = 0 := by decide +kernel

/-! ## Timers -/

theorem witness_HeartbeatAndPresence :
    bellows.resetLow = false ∧ bellows.stc.station = .run ∧ bellows.blw.phase = .measuring ∧
    bellows.blw.heartbeat.running = true ∧ base.working = true ∧
    base.ptb.presenceTimer.running = true := by decide +kernel
theorem test_presence_expiry_writes_presence :
    (after .presenceTimerExpiry base).lkc.updates.presence =
      some ⟨.presence 2 false .shared 2#8 0 .run ⟨false, true, false, false⟩, 0⟩ := by
  decide +kernel
theorem test_heartbeat_expiry_writes_bellows :
    (after .heartbeatTimerExpiry bellows).lkc.updates.bellows = some ⟨.bellows 2 .push 0 false, 0⟩ := by
  decide +kernel

/-- The following station once STALE. -/
def stale : State :=
  { following with grf := { following.grf with freshness := .stale, staleTimer := none } }

/-- The station with LINK DROP standing. -/
def dropped : State :=
  { base with lkc := { base.lkc with linkDropTimer := some 2 } }

theorem witness_TimersMoveFreshness :
    following.resetLow = false ∧ following.working = true ∧ following.grf.staleTimer.running = true ∧
    following.grf.freshness = .fresh ∧ stale.grf.lostTimer.running = true ∧ stale.grf.freshness = .stale ∧
    base.ofu.livenessTimer.running = true ∧ dropped.lkc.linkDropTimer.running = true := by decide +kernel
/-- `held` as a STALE follower, with the given hold time. -/
def fading (hold : Nat) : State :=
  { held with
    plu := { held.plu with holdTime := hold }
    grf := { held.grf with source := some 3, freshness := .stale, lostTimer := some 1 } }

theorem witness_TimersMoveFreshness_fall :
    (fading 50).grf.level ≠ 0 ∧ (fading 50).playing = true ∧ (fading 50).plu.suspended = none ∧
    (fading 50).stc.station = .run ∧ (∃ r ∈ (fading 50).plu.held, r.state = .placed) ∧ (fading 50).plu.holdTime ≠ 0 ∧
    (fading 0).plu.holdTime = 0 ∧ waiting.plu.suspended.isSome = true ∧ waiting.grf.level ≠ 0 ∧
    stale.grf.level = 0 := by decide +kernel
theorem witness_TimersMoveFreshness_fall_lawful : (fading 0).HeldListLawful := by
  unfold State.HeldListLawful
  decide +kernel
theorem test_fall_holds_the_breath_or_fades :
    (after .lostTimerExpiry (fading 50)).plu.breathTimer = some (ms 50) ∧
    (after .lostTimerExpiry (fading 50)).plu.held = [⟨0, 0, .treble, .push, .placed, [0]⟩] ∧
    (after .lostTimerExpiry (fading 0)).plu.held = [⟨0, 0, .treble, .push, .armed, []⟩] := by decide +kernel
theorem test_stale_then_lost :
    (after .staleTimerExpiry following).grf.freshness = .stale ∧
    (after .lostTimerExpiry stale).stc.trouble.bellowsLost = true := by decide +kernel
theorem test_engine_absent_and_link_drop :
    (after .engineLivenessTimerExpiry base).stc.trouble.engineAbsent = true ∧
    (after .linkDropTimerExpiry dropped).lkc.linkDropTimer = none := by decide +kernel

/-- `held` with the breath timer running. -/
def breathing : State :=
  { held with plu := { held.plu with breathTimer := some 1 } }

theorem witness_BreathTimerExpiry :
    breathing.resetLow = false ∧ breathing.playing = true ∧ breathing.plu.breathTimer.running = true ∧
    breathing.plu.suspended = none ∧ waiting.plu.breathTimer.running = true ∧
    waiting.plu.suspended.isSome = true := by decide +kernel
theorem witness_BreathTimerExpiry_lawful :
    breathing.HeldListLawful := by
  unfold State.HeldListLawful
  decide +kernel
/-- `breathing` with two SOUNDING notes, whose tags stand in the record's list the later one first. -/
def paired : State :=
  { breathing with
    plu := { breathing.plu with held := [⟨0, 0, .treble, .push, .placed, [1, 0]⟩] }
    nrs := ⟨[⟨0, 1, 60, .sustain, 1, .sounding, .noFrame, none, none, false⟩,
      ⟨1, 1, 64, .sustain, 1, .sounding, .noFrame, none, none, false⟩], 2, none, false⟩
    lkc := loud.lkc }

theorem witness_tag_lists :
    paired.playing = true ∧ paired.plu.suspended = none ∧
    paired.plu.held.find? (·.contact == 0) = some ⟨0, 0, .treble, .push, .placed, [1, 0]⟩ ∧
    inFlight.playing = true ∧ inFlight.queueInFlight = true := by decide +kernel
theorem witness_tag_lists_lawful : paired.nrs.Lawful ∧ paired.HeldListLawful := by
  unfold NoteRoster.Lawful State.HeldListLawful
  decide +kernel
theorem test_release_and_fade_follow_the_tag_list :
    (paired.placementEvent (.release 0)).lkc.noteQueue = [⟨.stop 1 .normal, 0⟩, ⟨.stop 0 .normal, 0⟩] ∧
    (paired.placementEvent (.release 0)).plu.held = [] ∧
    (after .breathTimerExpiry paired).lkc.noteQueue = [⟨.stop 1 .fade, 0⟩, ⟨.stop 0 .fade, 0⟩] := by decide +kernel
theorem test_panic_follows_the_roster :
    paired.panic.lkc.noteQueue = [⟨.stop 0 .panic, 0⟩, ⟨.stop 1 .panic, 0⟩] ∧ held.panic.nrs.roster.length = 1 ∧
    inFlight.panic.nrs.roster.map (·.queued) = [.stop, .start] := by decide +kernel
/-- Under a limit of 1 the oldest note is stolen; where the slot is undetected both are lost. -/
theorem test_trim_ends_the_oldest_first :
    ({ paired with ofu := { paired.ofu with limit := (PerSlot.all 0).set 1 1 } } : State).trimAll.lkc.noteQueue =
      [⟨.stop 0 .stolen, 0⟩] ∧
    ({ paired with ofu := OfferUnit.reset } : State).trimAll.lkc.noteQueue =
      [⟨.stop 0 .lost, 0⟩, ⟨.stop 1 .lost, 0⟩] := by decide +kernel
theorem test_breath_expiry_fades :
    (after .breathTimerExpiry breathing).lkc.noteQueue = [⟨.start 1 1 64 64 .staccato, 0⟩, ⟨.stop 0 .fade, 0⟩] := by
  decide +kernel
theorem witness_StaccatoDeadline :
    held.resetLow = false ∧ held.playing = true ∧
    held.nrs.roster.find? (·.tag == 1) = some ⟨1, 1, 64, .staccato, 1, .starting, .start, none, some 8, false⟩ ∧
    held.tagInFlight 1 = false ∧ inFlight.tagInFlight 1 = true := by decide +kernel
theorem witness_StaccatoDeadline_lawful : held.nrs.Lawful := by
  unfold NoteRoster.Lawful
  decide +kernel
theorem test_staccato_of_a_waiting_start_is_withdrawn :
    (after (.staccatoDeadlineExpiry 1) held).lkc.noteQueue = [] ∧
    (after (.staccatoDeadlineExpiry 1) held).nrs.roster.length = 1 := by decide +kernel
theorem test_staccato_of_a_start_in_flight_is_owed :
    ((after (.staccatoDeadlineExpiry 1) inFlight).nrs.roster.getD 1 ⟨0, 0, 0, .sustain, 0, .starting, .start, none, none, false⟩).state = .ending := by
  decide +kernel

/-- `held` with the first entry's deadline running. -/
def soundingStaccato : State :=
  { held with nrs := ⟨[⟨0, 1, 60, .staccato, 1, .sounding, .noFrame, none, some 8, false⟩], 2, none, false⟩ }

theorem witness_StaccatoDeadline_sounding :
    soundingStaccato.nrs.roster.find? (·.tag == 0) =
      some ⟨0, 1, 60, .staccato, 1, .sounding, .noFrame, none, some 8, false⟩ ∧
    soundingStaccato.playing = true := by decide +kernel
/-- `held` with a REFRESH-START of its first entry, a STACCATO one, at the head of the queue. -/
def refreshing : State :=
  { held with
    nrs := ⟨[⟨0, 1, 60, .staccato, 1, .sounding, .refreshStart, none, some 8, false⟩], 2, none, false⟩
    lkc := { held.lkc with noteQueue := [⟨.refreshStart 0 1 60 64, 0⟩] } }

theorem witness_StaccatoDeadline_refreshing :
    refreshing.nrs.roster.find? (·.tag == 0) =
      some ⟨0, 1, 60, .staccato, 1, .sounding, .refreshStart, none, some 8, false⟩ ∧
    refreshing.playing = true ∧ refreshing.tagInFlight 0 = false ∧
    (after .idleMoment refreshing).tagInFlight 0 = true := by decide +kernel
theorem test_staccato_takes_the_place_of_a_refresh_start :
    (after (.staccatoDeadlineExpiry 0) refreshing).lkc.noteQueue = [⟨.stop 0 .normal, 0⟩] := by decide +kernel
theorem witness_PeerExpiry :
    following.resetLow = false ∧ following.working = true ∧ (following.ptb.peer 3).live = true ∧
    (following.ptb.peer 3).expiry.running = true ∧ following.grf.sourceMode = .follow ∧
    following.grf.freshness ≠ .lost := by decide +kernel
theorem test_peer_expiry_loses_the_source :
    (after (.peerExpiry 3) following).grf.source = none ∧
    (after (.peerExpiry 3) following).grf.freshness = .lost := by decide +kernel

/-! ## The transmitter -/

/-- The station with one value in the update table. -/
def tabled (s : State) (key : TableKey) (f : OutFrame) : State :=
  { s with lkc := { s.lkc with updates := s.lkc.updates.put key (some ⟨f, 2⟩) } }

/-- The station with an attempt of an update-table entry in flight. -/
def sending (key : TableKey) (f : OutFrame) (failures : Nat) (rewritten withdraw : Bool) : State :=
  let s := tabled base key f
  { s with lkc := { s.lkc with
    tx := some ⟨.table key, f, failures, rewritten, withdraw⟩
    driven := OutFrame.bits 5 f } }

theorem witness_ArbiterChooses :
    held.resetLow = false ∧ held.working = true ∧ held.lkc.listening = false ∧ held.lkc.linkRate.isSome = true ∧
    held.lkc.tx = none ∧ held.lkc.updates.bellows = none ∧ listening.lkc.listening = true ∧
    inFlight.lkc.tx.isSome = true := by decide +kernel
theorem witness_ArbiterChooses_levels :
    (tabled base (.level 7) (.level 7 3)).lkc.updates.levels.get 7 = some ⟨.level 7 3, 2⟩ ∧
    (tabled base (.level 7) (.level 7 3)).lkc.noteQueue = [] ∧
    ∀ j < (7 : Slot), (tabled base (.level 7) (.level 7 3)).lkc.updates.levels.get j = none := by decide +kernel
theorem witness_ArbiterChooses_results :
    attemptResult [true, false] [true] = none ∧ attemptResult [true, false] [true, false, true] = some .success ∧
    (let sent := frameBits 3 5 9 [0#8]
     sent.length = 55 ∧ sent[9]? = some true ∧ sent[10]? = some true ∧ sent[11]? = some false) ∧
    base.lkc.tx = none := by decide +kernel
/-- A frame of class 3 and sender 5 has 3, then 0101, in its arbitration field: a dominant bit read for the first is a
lost arbitration, a recessive bit read for a dominant one a failure, as is any mismatch outside the field. -/
theorem test_results_of_attempts :
    (let sent := frameBits 3 5 9 [0#8]
     attemptResult sent (sent.take 9 ++ [false]) = some .lostArbitration ∧
       attemptResult sent (sent.take 11 ++ [true]) = some .failure ∧
       attemptResult sent (sent.take 8 ++ [true]) = some .failure ∧
       attemptResult sent (sent.take 20) = none ∧ attemptResult sent sent = some .success) := by decide +kernel
theorem test_notes_go_before_levels :
    (after .idleMoment (tabled held (.level 0) (.level 0 3))).lkc.tx =
      some ⟨.queueHead, .note (.start 1 1 64 64 .staccato), 0, false, false⟩ := by
  decide +kernel
theorem test_bellows_goes_before_notes :
    (after .idleMoment (tabled held .bellows (.bellows 2 .push 3 false))).lkc.tx =
      some ⟨.table .bellows, .bellows 2 .push 3 false, 2, false, false⟩ := by
  decide +kernel
theorem witness_TransmittedNoteFrames :
    inFlight.resetLow = false ∧ inFlight.stc.station ≠ .reloading ∧
    inFlight.lkc.tx = some ⟨.queueHead, .note (.start 1 1 64 64 .staccato), 0, false, false⟩ ∧
    inFlight.lkc.noteQueue = [⟨.start 1 1 64 64 .staccato, 0⟩] ∧
    inFlight.nrs.roster.find? (·.tag == 1) =
      some ⟨1, 1, 64, .staccato, 1, .starting, .start, none, some 8, false⟩ := by
  decide +kernel
theorem witness_TransmittedNoteFrames_owed :
    (let s := ending (.start 1 1 64 64 .normal) .start .stolen true
     s.stc.station ≠ .reloading ∧ s.lkc.tx = some ⟨.queueHead, .note (.start 1 1 64 64 .normal), 3, false, true⟩ ∧
       s.lkc.noteQueue = [⟨.start 1 1 64 64 .normal, 3⟩] ∧
       s.nrs.roster.find? (·.tag == 1) = some ⟨1, 1, 64, .sustain, 1, .ending, .start, some .stolen, none, false⟩) ∧
    (let s := ending (.stop 1 .normal) .stop .normal false
     s.lkc.tx = some ⟨.queueHead, .note (.stop 1 .normal), 3, false, false⟩ ∧
       s.lkc.noteQueue = [⟨.stop 1 .normal, 3⟩] ∧ s.nrs.waiting = none) ∧
    (bowing none).lkc.tx = some ⟨.queueHead, .note (.bow .pull 2#8), 0, false, false⟩ ∧
    (bowing none).lkc.noteQueue = [⟨.bow .pull 2#8, 0⟩] := by decide +kernel
theorem witness_TransmittedNoteFrames_waiting :
    waiting.lkc.noteQueue = [⟨.stop 0 .normal, 0⟩] ∧ waiting.nrs.waiting = some ⟨60, 1, .sustain, 20, 0, .placement⟩ ∧
    waiting.nrs.answerOwed = false ∧ waiting.plu.suspended = some ⟨0, [], [], none⟩ ∧
    attemptResult waiting.lkc.driven waiting.lkc.driven = some .success ∧
    (∃ t, exec .breathTimerExpiry waiting = .next t ∧ t.plu.heldEvents = [.breathExpiry]) := by
  refine ⟨rfl, rfl, rfl, rfl, by decide +kernel, _, rfl, by decide +kernel⟩
/-- The END has gone out: its entry is freed, and the request makes a new one, whose tag joins the record. -/
theorem test_waiting_request_is_handled_again :
    (afterSuccess waiting).lkc.noteQueue = [⟨.start 1 1 60 64 .normal, 0⟩] ∧
    (afterSuccess waiting).plu.held = [⟨0, 0, .treble, .push, .placed, [1]⟩] ∧
    (afterSuccess waiting).plu.suspended = none := by decide +kernel
theorem test_transmitted_start_sounds :
    ((afterSuccess inFlight).nrs.roster.getD 1 ⟨0, 0, 0, .sustain, 0, .ending, .start, none, none, false⟩).state = .sounding := by
  decide +kernel
theorem test_owed_end_is_queued_and_counted :
    (afterSuccess (ending (.start 1 1 64 64 .normal) .start .stolen true)).lkc.noteQueue =
      [⟨.stop 1 .stolen, 0⟩] ∧
    (afterSuccess (ending (.start 1 1 64 64 .normal) .start .stolen true)).stc.counters.stolenNotes =
      1 := by
  decide +kernel
theorem witness_UnsuccessfulNoteFrames :
    (∀ tag, (NoteFrame.start 1 1 64 64 .staccato).tag? = some tag →
      ∃ e, inFlight.nrs.roster.find? (·.tag == tag) = some e ∧
        ((NoteFrame.start 1 1 64 64 .staccato).queuedAs = .stop ∨ e.state ≠ .ending)) ∧
    (NoteFrame.start 1 1 64 64 .staccato).queuedAs ≠ .stop ∧ (NoteFrame.start 1 1 64 64 .staccato).isBow = false := by
  refine ⟨?_, by decide, by decide⟩
  intro tag h
  have h1 : tag = 1 := by
    simpa [NoteFrame.tag?] using h.symm
  subst h1
  exact ⟨⟨1, 1, 64, .staccato, 1, .starting, .start, none, some 8, false⟩, by decide +kernel, by decide⟩
theorem witness_UnsuccessfulNoteFrames_withdrawn :
    (ending (.start 1 1 64 64 .normal) .start .normal true).lkc.tx =
      some ⟨.queueHead, .note (.start 1 1 64 64 .normal), 3, false, true⟩ ∧
    (ending (.refreshStart 1 1 64 64) .refreshStart .normal true).lkc.tx =
      some ⟨.queueHead, .note (.refreshStart 1 1 64 64), 3, false, true⟩ ∧
    (ending (.refreshStart 1 1 64 64) .refreshStart .normal true).nrs.roster.find? (·.tag == 1) =
      some ⟨1, 1, 64, .sustain, 1, .ending, .refreshStart, some .normal, none, false⟩ := by
  decide +kernel
theorem witness_UnsuccessfulNoteFrames_owed_bow :
    (bowing (some (.push, 6#8))).plu.owedBow = some (.push, 6#8) ∧
    (bowing (some (.push, 6#8))).lkc.tx = some ⟨.queueHead, .note (.bow .pull 2#8), 0, false, false⟩ := by
  decide +kernel
theorem witness_UnsuccessfulNoteFrames_waiting :
    attemptResult waiting.lkc.driven [false] = some .failure ∧
    attemptResult waiting.lkc.driven (waiting.lkc.driven.take 10 ++ [false]) = some .lostArbitration ∧
    ({ waiting with nrs := { waiting.nrs with answerOwed := true } } : State).nrs.answerOwed = true := by decide +kernel
/-- The END has not gone out: the request, handled again, withdraws it and revives the entry. -/
theorem test_waiting_request_revives_after_a_failure :
    (afterFailure waiting).lkc.noteQueue = [] ∧
    (afterFailure waiting).nrs.roster = [⟨0, 1, 60, .sustain, 1, .sounding, .noFrame, none, none, false⟩] ∧
    (afterFailure waiting).plu.held = [⟨0, 0, .treble, .push, .placed, [0]⟩] := by decide +kernel
theorem test_withdrawn_start_frees_the_entry :
    (afterFailure (ending (.start 1 1 64 64 .normal) .start .normal true)).nrs.roster = [] ∧
    (afterFailure (ending (.start 1 1 64 64 .normal) .start .normal true)).lkc.noteQueue = [] := by
  decide +kernel
theorem test_lost_arbitration_keeps_the_count :
    (afterLoss (ending (.stop 1 .normal) .stop .normal false)).lkc.noteQueue =
      [⟨.stop 1 .normal, 3⟩] ∧
    (afterFailure (ending (.stop 1 .normal) .stop .normal false)).lkc.noteQueue =
      [⟨.stop 1 .normal, 4⟩] := by
  decide +kernel
theorem witness_TableAttempts :
    (sending .presence (.registration 1 2) 3 false false).resetLow = false ∧
    (sending (.level 3) (.level 3 9) 14 true false).lkc.tx = some ⟨.table (.level 3), .level 3 9, 14, true, false⟩ ∧
    (sending (.level 3) (.level 3 9) 14 false true).stc.station ≠ .reloading := by decide +kernel
theorem witness_TableAttempts_carried :
    (let s : State := { base with lkc := { base.lkc with tx := some ⟨.carried, .registration 1 2, 0, false, false⟩ } }
    s.resetLow = false ∧ s.lkc.tx = some ⟨.carried, .registration 1 2, 0, false, false⟩) := by decide +kernel
theorem test_transmitted_entry_is_emptied :
    (afterSuccess (sending .registration (.registration 2 3) 0 false false)).lkc.updates.registration =
      none := by
  decide +kernel
theorem test_rewritten_entry_stands :
    (afterSuccess (sending .registration (.registration 2 3) 0 true false)).lkc.updates.registration =
      some ⟨.registration 2 3, 2⟩ := by
  decide +kernel
/-- Slot 3's LEVEL entry is written while it is in flight, and its count then falls to 0. -/
def rewrittenThenRemoved : State :=
  ((sending (.level 3) (.level 3 9) 0 false false).writeEntry (.level 3) (.level 3 40)).removeEntry (.level 3)

/-- A success lets the held removal lapse and keeps the newer value; an end without success empties the entry (R155,
R160). -/
theorem test_removal_after_a_write_lapses_at_success :
    (afterSuccess rewrittenThenRemoved).lkc.updates.levels.get 3 = some ⟨.level 3 40, 0⟩ ∧
    (afterFailure rewrittenThenRemoved).lkc.updates.levels.get 3 = none := by decide +kernel
theorem witness_TableAttempts_both :
    rewrittenThenRemoved.lkc.tx = some ⟨.table (.level 3), .level 3 9, 0, true, true⟩ := by decide +kernel
theorem witness_DroppedFrames :
    (sending .status (.status .ack .run .zero) 15 false false).lkc.tx =
      some ⟨.table .status, .status .ack .run .zero, 15, false, false⟩ ∧
    TxSource.table .status ≠ .carried ∧ inFlight.lkc.noteQueue ≠ [] := by decide +kernel
theorem witness_DroppedFrames_failure :
    attemptResult (sending .status (.status .ack .run .zero) 15 false false).lkc.driven [false] = some .failure ∧
    attemptResult inFlight.lkc.driven [false] = some .failure := by decide +kernel
theorem witness_DrainEndsInLoading_entries :
    (reloading (sending .status (.status .ack .run .zero) 0 false false)).lkc.noteQueue = [] ∧
    (reloading (sending .status (.status .ack .run .zero) 0 false false)).lkc.updates.status.isSome = true ∧
    (reloading waiting).nrs.waiting.isSome = true ∧ (reloading waiting).plu.owed = [] ∧
    (reloading waiting).plu.heldEvents = [] := by decide +kernel
theorem test_the_drain_waits_for_the_status :
    (afterSuccess (reloading (sending .status (.status .ack .run .zero) 0 false false))).stc.station = .loading ∧
    (afterFailure (reloading (sending .status (.status .ack .run .zero) 0 false false))).stc.station = .reloading := by
  decide +kernel
theorem witness_HeartbeatAndPresence_in_flight :
    (sending .presence (.presence 2 false .shared 2#8 0 .run ⟨false, true, false, false⟩) 3 false true).ptb.presenceTimer.running = true ∧
    (sending .presence (.presence 2 false .shared 2#8 0 .run ⟨false, true, false, false⟩) 3 false true).working = true := by
  decide +kernel
theorem test_a_write_marks_the_attempt_of_its_entry :
    (after .presenceTimerExpiry (sending .presence (.registration 1 2) 3 false true)).lkc.tx =
      some ⟨.table .presence, .registration 1 2, 3, true, false⟩ := by decide +kernel
theorem test_sixteenth_failure_drops :
    (afterFailure (sending .presence (.registration 1 2) 15 false false)).stc.counters.transmitFailures = 1 ∧
    (afterFailure (sending .presence (.registration 1 2) 15 false false)).stc.trouble.linkDrop =
      true := by
  decide +kernel

/-! ## The receiver -/

theorem witness_FramesAreReadAsSent :
    (3 : Nat) < 4 ∧ (15 : Nat) < 16 ∧ lengthOk 10 (List.replicate 14 0#8).length = true ∧
    lengthOk 15 (List.replicate 15 0#8).length = true ∧ lengthOk 0 0 = false := by decide +kernel
theorem test_level_frame_is_read_back :
    (readFrame (OutFrame.bits 5 (.level 2 99))).map (fun r => (r.valid, r.frame)) =
      some (true, ⟨1, 5, 5, [2#8, 99#8]⟩) := by
  decide +kernel
theorem witness_ValidFrames :
    (let s := received base (List.replicate 4 ⟨1, 3, 5, [2#8, 99#8]⟩)
    s.resetLow = false ∧ s.working = true ∧ s.lkc.listening = false ∧ s.lkc.linkRate = some .kbit1000 ∧
      4 ≤ s.lkc.rxBuffer.length ∧ base.lkc.rxBuffer.length < 4 ∧ 3 ≠ s.stl.ownAddress) := by decide +kernel
theorem witness_ValidFrames_own :
    (sending (.level 2) (.level 2 99) 0 false false).lkc.driven = frameBits 1 5 5 [2#8, 99#8] ∧
    (afterSuccess (sending (.level 2) (.level 2 99) 0 false false)).lkc.driven = frameBits 1 5 5 [2#8, 99#8] ∧
    (afterSuccess (sending (.level 2) (.level 2 99) 0 false false)).lkc.tx = none ∧
    ∀ d, readFrame base.lkc.driven = some d → d.frame ≠ ⟨1, 3, 5, [2#8, 99#8]⟩ := by
  refine ⟨by decide +kernel, by decide +kernel, by decide +kernel, ?_⟩
  intro d h
  have hn : readFrame base.lkc.driven = none := by decide +kernel
  rw [hn] at h
  exact absurd h (by simp)
theorem test_own_frame_is_not_delivered_and_a_copy_is_a_conflict :
    (let s := after (.frameReceived .kbit1000 (frameBits 1 5 5 [2#8, 99#8]) true)
      (afterSuccess (sending (.level 2) (.level 2 99) 0 false false))
     s.stc.station = .run ∧ s.lkc.rxBuffer = [] ∧ s.lkc.driven = [] ∧
       (after (.frameReceived .kbit1000 (frameBits 1 5 5 [2#8, 99#8]) true) s).stc.faultReason = .addressConflict) := by
  decide +kernel
theorem witness_ValidFrames_listening :
    listening.resetLow = false ∧ listening.stc.station = .joining ∧ listening.lkc.listening = true ∧
    listening.lkc.rxBuffer = [] ∧ 3 ≠ listening.stl.ownAddress := by decide +kernel
theorem test_first_valid_frame_settles_the_rate :
    (after (.frameReceived .kbit250 (OutFrame.bits 3 (.level 2 99)) true) listening).lkc.linkRate = some .kbit250 ∧
    (after (.frameReceived .kbit250 (OutFrame.bits 3 (.level 2 99)) true) listening).lkc.rxBuffer.length = 1 := by
  decide +kernel
theorem witness_BrokenFrames :
    (List.replicate 20 false).take 9 ≠ [true, false, true, false, true, false, true, false, false] ∧
    base.lkc.linkRate ≠ some .kbit250 ∧ (loading .idle).working = false := by decide +kernel
theorem witness_BrokenFrames_begun :
    (∃ r, readFrame (opening ++ List.replicate 30 true) = some r ∧ r.crc ≠ (crc16 r.covered).toNat) ∧
    (∃ r, readFrame (frameBits 1 3 5 [2#8]) = some r ∧ lengthOk r.frame.kind r.length = false) ∧
    ∃ r, readFrame (((OutFrame.bits 3 (.level 2 99)).dropLast) ++ [false]) = some r ∧
    false ∈ r.endField := ⟨⟨_, rfl, by decide +kernel⟩, ⟨_, rfl, by decide +kernel⟩, ⟨_, rfl, by decide +kernel⟩⟩
theorem test_flipped_bit_is_a_receive_error :
    (after (.frameReceived .kbit1000 ((OutFrame.bits 3 (.level 2 99)).set 30 true) true) base).stc.counters.receiveErrors + (after (.frameReceived .kbit1000 ((OutFrame.bits 3 (.level 2 99)).set 30 false) true) base).stc.counters.receiveErrors = 1 := by
  decide +kernel

theorem test_activity_on_a_line_not_idle_is_no_frame :
    (after (.frameReceived .kbit1000 (OutFrame.bits 3 (.level 2 99)) false) base).lkc.rxBuffer = [] ∧
    (after (.frameReceived .kbit1000 (OutFrame.bits 3 (.level 2 99)) true) base).lkc.rxBuffer =
      [⟨1, 3, 5, [2#8, 99#8]⟩] := by
  decide +kernel

/-! ## Deliveries -/

/-- A BELLOWS frame, a PRESENCE frame, a REGISTRATION frame, an ENGINE OFFER part, an alert and a query. -/
def bellowsOf (sender : Nat) (flags : Byte) : RxFrame := ⟨0, sender, 0, [2#8, flags, 60#8]⟩
def presenceOf (sender : Nat) : RxFrame := ⟨3, sender, 9, [2#8, 1#8, 2#8, 0#8, 1#8, 0#8]⟩
def registrationOfGroup (group : Byte) : RxFrame := ⟨1, 3, 4, [group, 7#8]⟩
def offerPart (sender : Nat) (part : Byte) : RxFrame := ⟨3, sender, 10, [9#8, part, 0#8, 55#8, 96#8, 16#8]⟩
def alertOf (sender : Nat) (flags : Byte) : RxFrame := ⟨2, sender, 6, [flags, 2#8]⟩
def queryOf (target action : Byte) : RxFrame := ⟨2, 14, 7, [target, action]⟩

theorem witness_Deliveries :
    (received base [presenceOf 3]).resetLow = false ∧ (received base [presenceOf 3]).working = true ∧
    (received base [presenceOf 3]).lkc.rxBuffer = [presenceOf 3] ∧ delivers .presenceFrame (presenceOf 3) = true ∧
    delivers .queryStatus (presenceOf 3) = false ∧ (loading .idle).working = false ∧
    base.lkc.rxBuffer = [] := by decide +kernel
theorem witness_Deliveries_kinds :
    delivers .bellowsFrame (bellowsOf 3 0#8) = true ∧ delivers .registrationFrame (registrationOfGroup 2#8) = true ∧
    delivers .engineOfferPart (offerPart 15 0x11#8) = true ∧
    delivers .engineAlertExhausted (alertOf 15 1#8) = true ∧ delivers .engineAlertNoFlag (alertOf 15 8#8) = true ∧
    delivers .queryOtherAction (queryOf 0#8 3#8) = true ∧
    delivers .untakenFrame ⟨1, 3, 5, [2#8, 99#8]⟩ = true := by decide +kernel
theorem witness_UntakenFrames :
    delivers .engineAlertNoFlag (alertOf 3 8#8) = true ∧ delivers .bellowsFrame (bellowsOf 14 0#8) = true ∧
    delivers .engineAlertPanic (alertOf 3 4#8) = true ∧ (alertOf 3 4#8).sender ≠ 15 ∧
    (following.ptb.peer 3).live = true ∧ (base.ptb.peer 3).live = false ∧
    3 ≠ base.stl.ownAddress := by decide +kernel
theorem test_untaken_frame_makes_a_peer_live :
    ((after .untakenFrame (received base [⟨1, 3, 5, [2#8, 99#8]⟩])).ptb.peer 3) = ⟨true, some 700, none⟩ := by
  decide +kernel
theorem test_alert_without_flags_is_evidence :
    (after .engineAlertNoFlag (received base [alertOf 15 0#8])).ofu.livenessTimer = some 4000 := by decide +kernel
theorem witness_BellowsFrames :
    (received following [bellowsOf 3 0#8]).resetLow = false ∧
    (received following [bellowsOf 3 0#8]).working = true ∧ following.grf.source = some 3 ∧
    ((bellowsOf 3 0#8).byte 0).toNat = following.grf.ownGroup ∧ ((bellowsOf 3 0#8).byte 1).getLsbD 1 = false ∧
    ((bellowsOf 3 3#8).byte 1).getLsbD 1 = true ∧ base.grf.source = none := by decide +kernel
/-- The followed station with a record ARMED. -/
def armed : State :=
  { following with plu := { following.plu with held := [⟨0, 0, .treble, .push, .armed, []⟩] } }

theorem witness_BellowsFrames_rise :
    armed.playing = true ∧ armed.stc.station = .run ∧ armed.grf.level = 0 ∧ armed.plu.suspended = none ∧
    loud.grf.level ≠ 0 ∧ (loading .idle).playing = false ∧ waiting.plu.suspended.isSome = true := by decide +kernel
theorem test_rise_places_the_armed_records :
    (after .bellowsFrame (received armed [bellowsOf 3 0#8])).plu.held = [⟨0, 0, .treble, .push, .placed, [0]⟩] ∧
    (after .bellowsFrame (received armed [bellowsOf 3 0#8])).lkc.noteQueue = [⟨.start 0 1 60 60 .normal, 0⟩] := by
  decide +kernel
theorem test_bellows_frame_is_followed :
    (after .bellowsFrame (received following [bellowsOf 3 1#8])).grf.level = 60 ∧
    (after .bellowsFrame (received following [bellowsOf 3 1#8])).grf.direction = .pull := by decide +kernel
theorem test_lost_bellows_frame_loses_the_source :
    (after .bellowsFrame (received following [bellowsOf 3 2#8])).grf.freshness = .lost := by decide +kernel
theorem witness_RegistrationFrames :
    (received base [registrationOfGroup 2#8]).working = true ∧ base.grf.registrationMode = .shared ∧
    ((registrationOfGroup 2#8).byte 0).toNat = base.grf.ownGroup ∧
    ((registrationOfGroup 1#8).byte 0).toNat ≠ base.grf.ownGroup := by decide +kernel
/-- `held` with the value last sent for slot 1. -/
def heard (last : Nat) : State :=
  { held with lvu := { held.lvu with lastSent := .all last, threshold := 4 } }

/-- `held` with slot 1's count not yet reported, from the given old count and with the given roster. -/
def counting (old : Nat) (roster : List RosterEntry) (pending : Bool) : State :=
  { held with
    nrs := { held.nrs with roster := roster }
    lvu := { held.lvu with slotCount := (PerSlot.all 0).set 1 old, removalPending := .all pending } }

theorem witness_RegistrationFrames_levels :
    0 < (heard 60).lvu.slotCount.get 1 ∧ (heard 60).lvu.sectionLevel.get 1 = 64 ∧
    (counting 0 held.nrs.roster true).nrs.count 1 = 2 ∧ (counting 2 [] false).nrs.count 1 = 0 ∧
    (sending (.level 1) (.level 1 9) 0 false false).keyInFlight (.level 1) = true ∧
    (tabled (counting 2 [] false) (.level 1) (.level 1 9)).keyInFlight (.level 1) = false ∧
    (tabled (counting 2 [] false) (.level 1) (.level 1 9)).lkc.updates.levels.get 1 ≠ none ∧
    (counting 2 [] false).lkc.updates.levels.get 1 = none := by decide +kernel
/-- The level of 64 differs from 60 by the threshold of 4, and from 61 by less. -/
theorem test_levels_are_written_from_the_threshold_on :
    (after .registrationFrame (received (heard 60) [registrationOfGroup 2#8])).lkc.updates.levels.get 1 =
      some ⟨.level 1 64, 0⟩ ∧
    (after .registrationFrame (received (heard 61) [registrationOfGroup 2#8])).lkc.updates.levels.get 1 = none := by
  decide +kernel
theorem test_fall_of_a_count_removes_the_level_entry :
    ((tabled (counting 2 [] false) (.level 1) (.level 1 9)).reportCount 1).lkc.updates.levels.get 1 = none := by
  decide +kernel
theorem test_registration_of_the_group_is_adopted :
    (after .registrationFrame (received base [registrationOfGroup 2#8])).grf.registration = 7 ∧
    (after .registrationFrame (received base [registrationOfGroup 1#8])).grf.registration = 0 := by decide +kernel
theorem witness_PresenceFrames :
    (presenceOf 3).kind = kindPresence ∧ 1 ≤ (presenceOf 3).sender ∧ (presenceOf 3).sender ≤ 12 ∧
    (presenceOf 3).sender ≠ base.stl.ownAddress ∧ 1 ≤ ((presenceOf 3).byte 0).toNat ∧
    ((presenceOf 3).byte 0).toNat ≤ 4 ∧ (base.ptb.peer 3).live = false := by decide +kernel
theorem witness_PresenceFrames_known :
    (let s : State := { base with ptb := { base.ptb with
      peers := base.ptb.peers.set 2 ⟨true, some 3, some ⟨2, true, 2#8⟩⟩ } }
    (s.ptb.peer 3).live = true ∧ (s.ptb.peer 3).declared = some ⟨2, true, 2#8⟩) := by decide +kernel
theorem test_presence_shares_the_slot :
    (after .presenceFrame (received base [presenceOf 3])).ofu.limit.get 1 = 4 ∧
    (after .presenceFrame (received base [presenceOf 3])).grf.source = some 3 := by decide +kernel
theorem witness_OfferParts :
    (received base [offerPart 15 0x11#8]).working = true ∧ (offerPart 15 0x11#8).kind = kindOffer ∧
    ((offerPart 15 0x12#8).byte 1).toNat / 16 = 1 ∧ ((offerPart 15 0x12#8).byte 1).toNat % 16 = 2 ∧
    ((offerPart 15 0x05#8).byte 1).toNat / 16 = 0 ∧ base.ofu.assembly = none := by decide +kernel
theorem test_single_part_set_is_adopted :
    (after .engineOfferPart (received base [offerPart 15 0x11#8])).ofu.table.get 1 = some ⟨55, 96, 16⟩ := by
  decide +kernel
theorem test_first_of_two_parts_is_kept :
    ((after .engineOfferPart (received base [offerPart 15 0x12#8])).ofu.assembly.map (·.parts.length)) = some 2 ∧
    (after .engineOfferPart (received base [offerPart 15 0x12#8])).ofu.table = base.ofu.table := by decide +kernel
theorem witness_Exhaustion :
    (received held [alertOf 15 1#8]).working = true ∧ (alertOf 15 1#8).kind = kindAlert ∧
    (alertOf 15 1#8).alertFlag 0 = true ∧ (alertOf 3 1#8).sender ≠ 15 := by decide +kernel
theorem test_exhaustion_caps_at_the_count :
    (after .engineAlertExhausted (received held [alertOf 15 1#8])).ofu.limit.get 1 = 2 ∧
    (after .engineAlertExhausted (received held [alertOf 15 1#8])).ofu.cap.get 0 = none := by decide +kernel
theorem witness_Restart :
    (received held [alertOf 15 2#8]).working = true ∧ (alertOf 15 2#8).sender = 15 ∧
    (alertOf 15 2#8).alertFlag 0 = false ∧ (alertOf 15 2#8).alertFlag 1 = true ∧
    (alertOf 15 2#8).alertFlag 2 = false ∧ 0 < held.lvu.slotCount.get 1 ∧
    held.lvu.slotCount.get 0 = 0 := by decide +kernel
theorem test_restart_refreshes :
    (after .engineAlertRestarted (received held [alertOf 15 2#8])).lkc.noteQueue =
      [⟨.start 1 1 64 64 .staccato, 0⟩, ⟨.refreshStart 0 1 60 64, 0⟩] := by
  decide +kernel
/-- The station after a restart report that finds every section level at 61, where the group level gives 64. -/
def restarted : State :=
  after .engineAlertRestarted
    (received { heard 60 with lvu := { (heard 60).lvu with sectionLevel := .all 61 } } [alertOf 15 2#8])

theorem witness_Restart_together :
    0 < (heard 60).lvu.slotCount.get 1 ∧ restarted.lvu.slotCount.get 1 = 2 ∧ restarted.lvu.justRestarted.get 1 = true ∧
    restarted.lvu.justRestarted.get 0 = false ∧ restarted.lvu.threshold = 4 ∧
    restarted.lkc.updates.levels.get 1 = some ⟨.level 1 61, 0⟩ := by decide +kernel
/-- The level moves from 61 to 64, less than the threshold of 4: it is written where the recomputation falls together
with the report, and not once half a millisecond has passed. -/
theorem test_recomputation_together_with_a_restart_writes :
    (after .registrationFrame (received restarted [registrationOfGroup 2#8])).lkc.updates.levels.get 1 =
      some ⟨.level 1 64, 0⟩ ∧
    (after .registrationFrame (received restarted.elapse [registrationOfGroup 2#8])).lkc.updates.levels.get 1 =
      some ⟨.level 1 61, 0⟩ := by
  decide +kernel
theorem witness_Panic :
    (received held [alertOf 15 4#8]).playing = true ∧ delivers .engineAlertPanic (alertOf 15 4#8) = true ∧
    delivers .queryPanic (queryOf 5#8 1#8) = true ∧ ((queryOf 5#8 1#8).byte 0).toNat = held.stl.ownAddress ∧
    13 ≤ (queryOf 5#8 1#8).sender := by decide +kernel
theorem test_panic_spends_the_records :
    (after .engineAlertPanic (received held [alertOf 15 4#8])).plu.held = [⟨0, 0, .treble, .push, .spent, []⟩] ∧
    (after .engineAlertPanic (received held [alertOf 15 4#8])).lkc.noteQueue = [⟨.stop 0 .panic, 0⟩] := by
  decide +kernel
theorem witness_Queries :
    delivers .queryStatus (queryOf 0#8 0#8) = true ∧ delivers .queryOtherAction (queryOf 5#8 255#8) = true ∧
    delivers .queryStatus (queryOf 6#8 0#8) = true ∧ ((queryOf 6#8 0#8).byte 0).toNat ≠ 0 ∧
    ((queryOf 6#8 0#8).byte 0).toNat ≠ base.stl.ownAddress ∧ (queryOf 6#8 0#8).sender = 14 := by decide +kernel
theorem witness_Queries_of_others :
    delivers .queryStatus ⟨2, 15, 7, [6#8, 0#8]⟩ = true ∧ delivers .queryPanic ⟨2, 3, 7, [6#8, 1#8]⟩ = true := by
  decide +kernel
theorem test_query_to_another_is_evidence_alone :
    (after .queryPanic (received held [⟨2, 3, 7, [6#8, 1#8]⟩])).plu.held = held.plu.held ∧
    ((after .queryPanic (received held [⟨2, 3, 7, [6#8, 1#8]⟩])).ptb.peer 3).live = true := by decide +kernel
theorem test_status_query_is_acknowledged :
    (after .queryStatus (received base [queryOf 0#8 0#8])).lkc.updates.status = some ⟨.status .ack .run .zero, 0⟩ ∧
    (after .queryStatus (received base [queryOf 6#8 0#8])).lkc.updates.status = none := by decide +kernel
theorem test_panic_query_is_acknowledged :
    (after .queryPanic (received held [queryOf 5#8 1#8])).lkc.updates.status = some ⟨.status .ack .run .zero, 0⟩ := by
  decide +kernel
theorem test_other_action_is_refused :
    (after .queryOtherAction (received base [queryOf 5#8 3#8])).lkc.updates.status =
      some ⟨.status .nak .run .zero, 0⟩ := by
  decide +kernel
theorem witness_Reload :
    delivers .queryReload (queryOf 0#8 2#8) = true ∧ (received base [queryOf 0#8 2#8]).working = true ∧
    base.stc.station ≠ .reloading ∧ (reloading base).stc.station = .reloading ∧
    (reloading base).working = true := by decide +kernel
theorem test_reload_starts_the_drain :
    (after .queryReload (received base [queryOf 0#8 2#8])).stc.drainTimer = some (ms 100) ∧
    (after .queryReload (received base [queryOf 0#8 2#8])).stc.station = .reloading := by decide +kernel
theorem test_reload_in_reloading_is_busy :
    (after .queryReload (received (reloading base) [queryOf 0#8 2#8])).lkc.updates.status =
      some ⟨.status .busy .reloading .zero, 0⟩ := by
  decide +kernel

/-! ## The laws -/

theorem witness_StepsKeep_step :
    step base = .next base.elapse ∧ base.elapse.ptb.presenceTimer = some 199 := ⟨rfl, by decide +kernel⟩
theorem witness_StepsKeepTheBounds :
    held.CountersInRange ∧ held.HeldListLawful := by
  unfold State.CountersInRange State.HeldListLawful
  decide +kernel
theorem witness_StepsKeepTheBounds_link :
    held.LinkLawful := by
  refine ⟨by decide +kernel, ?_, by decide +kernel, ?_⟩
  · intro key e h
    cases key <;> simp [held, loud, base, LinkController.reset, UpdateTable.empty, UpdateTable.get, PerSlot.all,
      PerSlot.ofFn] at h
    rename_i k
    have hk : ∀ k : Slot,
        PerSlot.get (⟨none, none, none, none, none, none, none, none⟩ : PerSlot (Option TableEntry)) k = none := by
      decide
    rw [hk] at h
    exact absurd h (by simp)
  · intro a h
    have hn : held.lkc.tx = none := by decide +kernel
    rw [hn] at h
    exact absurd h (by simp)
theorem witness_StepsKeepTheBounds_driven :
    ∃ a, inFlight.lkc.tx = some a ∧ a.failures < 16 ∧ inFlight.lkc.driven = a.frame.bits 5 := ⟨_, rfl, by decide, rfl⟩
theorem witness_StepsKeepEverySlotWithinItsLimit :
    held.WithinLimits := by
  refine ⟨witness_StaccatoDeadline_lawful, ?_, by decide +kernel⟩
  intro h
  exact absurd h (by decide)
theorem witness_StepsKeepDerivedValuesCurrent :
    held.LimitsCurrent ∧ base.SectionLevelsCurrent ∧ held.LevelsInRange := by
  refine ⟨?_, ?_, ?_⟩
  · unfold State.LimitsCurrent
    decide +kernel
  · unfold State.SectionLevelsCurrent
    decide +kernel
  · unfold State.LevelsInRange
    decide +kernel
theorem witness_StepsKeepPeersAndSuspensionLawful :
    waiting.SuspensionLawful := by
  unfold State.SuspensionLawful
  decide +kernel
theorem witness_StepsKeepTimersFittingTheStation :
    held.TimersFitStation ∧ (scanning held).TimersFitStation := by
  constructor <;> unfold State.TimersFitStation <;> decide +kernel
theorem witness_StepsKeepTheTroubleSetTrue :
    held.TroubleTrue := by
  refine ⟨fun h => absurd h (by decide), fun _ => ?_⟩
  decide +kernel
theorem witness_StepsKeepNotesAndQueueInAgreement : inFlight.NotesLawful := by
  refine ⟨witness_StaccatoDeadline_lawful, fun h => absurd h (by decide), ?_, ?_, ?_, by decide +kernel⟩
  · intro e he
    have h : e = ⟨0, 1, 60, .sustain, 1, .sounding, .noFrame, none, none, false⟩ ∨
        e = ⟨1, 1, 64, .staccato, 1, .starting, .start, none, some 8, false⟩ := by
      simpa [inFlight, held] using he
    rcases h with rfl | rfl <;> simp [State.EntryLawful, Timer.running]
  · refine ⟨by decide +kernel, by decide +kernel, ?_, by decide +kernel⟩
    intro q hq tag ht
    have h : q = ⟨.start 1 1 64 64 .staccato, 0⟩ := by
      simpa [inFlight, held] using hq
    subst h
    have h1 : tag = 1 := by
      simpa [NoteFrame.tag?] using ht.symm
    subst h1
    exact ⟨⟨1, 1, 64, .staccato, 1, .starting, .start, none, some 8, false⟩, by simp [inFlight, held], rfl, rfl⟩
  · refine ⟨?_, by decide +kernel, fun h => absurd h (by decide)⟩
    intro a ha _
    have h : a = ⟨.queueHead, .note (.start 1 1 64 64 .staccato), 0, false, false⟩ := by
      simpa [inFlight] using ha.symm
    subst h
    exact ⟨⟨.start 1 1 64 64 .staccato, 0⟩, rfl, rfl, fun h => absurd h (by decide)⟩

end Sys2Proof.Tests
end

