-- ==== Sys2Proof/Proofs/Lookup.lean ====
section
/-! PROOFS. The Map Store's lookups (chapter 1): which layers and addresses a lookup has, what each kind of entry gives
at an address, and how the result is put together. -/

namespace Sys2Proof.Machine

/-! ## Layers and addresses -/

theorem BankPair.mem_activeLayers (p : BankPair) (j : Nat) :
    j ∈ p.activeLayers ↔ j < 8 ∧ j < p.stride ∧ p.layerMask.getLsbD j = true := by
  simp [BankPair.activeLayers]

theorem BankPair.activeLayers_pairwise_lt (p : BankPair) : p.activeLayers.Pairwise (· < ·) :=
  List.pairwise_lt_range.filter _

theorem BankPair.addresses_push (p : BankPair) (n : Nat) :
    p.addresses n .push = p.activeLayers.map fun j => p.pushBase + n * p.stride + j := rfl

theorem BankPair.addresses_pull (p : BankPair) (n : Nat) :
    p.addresses n .pull = p.activeLayers.map fun j => p.pullBase + n * p.stride + j := rfl

theorem BankPair.addresses_eq_nil {p : BankPair} (h : p.activeLayers = []) (n : Nat) (d : Direction) :
    p.addresses n d = [] := by
  simp [BankPair.addresses, h]

/-! ## The result of a lookup -/

theorem MapStore.lookup_items (m : MapStore) (n r : Nat) (name : PairName) (d : Direction) :
    (m.lookup n name d r).items =
      (((m.registration r).pair name).addresses n d).flatMap fun a => (m.reach a).getD [] := by
  simp [MapStore.lookup, List.flatMap_map]

theorem MapStore.lookup_misses (m : MapStore) (n r : Nat) (name : PairName) (d : Direction) :
    (m.lookup n name d r).misses =
      (((m.registration r).pair name).addresses n d).countP fun a => (m.reach a).isNone := by
  simp only [MapStore.lookup, ← List.countP_eq_length_filter, List.countP_map, Function.comp_def]

theorem MapStore.lookup_transposition (m : MapStore) (n r : Nat) (name : PairName) (d : Direction) :
    (m.lookup n name d r).transposition = (m.registration r).transposition := rfl

/-! ## What an address reaches -/

section Reach

variable {m : MapStore} {a : Nat}

theorem MapStore.reach_of_length_le (h : m.map.length ≤ a) : m.reach a = none := by
  simp [MapStore.reach, List.getElem?_eq_none h]

/-- An entry that is not an ALIAS stands for itself. -/
theorem MapStore.reach_of_not_alias {e : MapEntry} (h : m.map[a]? = some e) (hne : ∀ u, e ≠ .aliasTo u) :
    m.reach a = m.itemsOf e := by
  cases e with
  | aliasTo u => exact absurd rfl (hne u)
  | empty => simp [MapStore.reach, h]
  | note f => simp [MapStore.reach, h]
  | chord f t => simp [MapStore.reach, h]

/-- An ALIAS is followed once: the entry at its target is read as it stands, and one that is an ALIAS itself has no
items of its own (R7). -/
theorem MapStore.reach_of_alias {t : Nat} (h : m.map[a]? = some (.aliasTo t)) :
    m.reach a = (m.map[t]?).bind m.itemsOf := by
  cases ht : m.map[t]? <;> simp [MapStore.reach, h, ht]

theorem MapStore.reach_alias_above {t : Nat} (h : m.map[a]? = some (.aliasTo t)) (ht : m.map.length ≤ t) :
    m.reach a = none := by
  simp [reach_of_alias h, List.getElem?_eq_none ht]

theorem MapStore.reach_alias_to_alias {t u : Nat} (h : m.map[a]? = some (.aliasTo t))
    (ht : m.map[t]? = some (.aliasTo u)) : m.reach a = none := by
  simp [reach_of_alias h, ht, MapStore.itemsOf]

theorem MapStore.reach_alias_eq_reach_target {t : Nat} {e : MapEntry} (h : m.map[a]? = some (.aliasTo t))
    (ht : m.map[t]? = some e) (hne : ∀ u, e ≠ .aliasTo u) : m.reach a = m.reach t := by
  rw [reach_of_alias h, ht, reach_of_not_alias ht hne, Option.bind_some]

theorem MapStore.reach_empty (h : m.map[a]? = some .empty) : m.reach a = some [] :=
  reach_of_not_alias h (by simp)

theorem MapStore.reach_note {f : NoteFields} (h : m.map[a]? = some (.note f)) : m.reach a = some [f.item 0 f.slot] :=
  reach_of_not_alias h (by simp)

theorem MapStore.reach_chord {f : NoteFields} {t : Nat} (h : m.map[a]? = some (.chord f t)) :
    m.reach a = some ((m.template t).map fun n => f.item n.interval (n.fixedSlot.getD f.slot)) :=
  reach_of_not_alias h (by simp)

end Reach

/-! ## The obligations -/

/-- Settles O17. -/
theorem lookupUsesActiveLayersAndBase : Obligations.LookupUsesActiveLayersAndBase := by
  refine ⟨BankPair.mem_activeLayers, BankPair.activeLayers_pairwise_lt,
    fun p n => ⟨p.addresses_push n, p.addresses_pull n⟩, fun m n r name d hnone => ?_⟩
  have hnil := BankPair.addresses_eq_nil hnone n d
  constructor
  · simp [m.lookup_items, hnil]
  · simp [m.lookup_misses, hnil]

/-- Settles O18: each clause is the rule of one kind of entry. -/
theorem lookupCountsMissesAndCollectsItems : Obligations.LookupCountsMissesAndCollectsItems :=
  ⟨fun _ _ => MapStore.reach_of_length_le,
    fun _ _ _ h => ⟨MapStore.reach_alias_above h, fun _ => MapStore.reach_alias_to_alias h,
      fun _ => MapStore.reach_alias_eq_reach_target h⟩,
    fun _ _ => MapStore.reach_empty,
    fun _ _ _ => MapStore.reach_note,
    fun _ _ _ _ => MapStore.reach_chord,
    fun m n r name d => ⟨m.lookup_misses n r name d, m.lookup_items n r name d, m.lookup_transposition n r name d⟩⟩

end Sys2Proof.Machine
end

