-- ==== Sys2Proof/Proofs/Offers.lean ====
section
/-! PROOFS. The Offer Unit's values (chapter 8): how an offer is classified and quantised, which offer a slot keeps, and
how the stations that declare a slot share its polyphony. -/

namespace Sys2Proof.Machine

/-! ## Classification (R126) -/

/-- The table of R126, read from the family codes. -/
theorem Offer.slot?_eq_some_iff (o : Offer) (k : Slot) : o.slot? = some k ↔ o.low ≤ o.high ∧
    ((o.family = 0 ∧ k = (if o.low ≤ 43 then 0 else 1)) ∨ (o.family = 1 ∧ k = (if o.low ≤ 45 then 2 else 3)) ∨
      (o.family = 2 ∧ k = (if o.low ≤ 50 then 4 else 5)) ∨ (o.family = 3 ∧ k = 6) ∨ (o.family = 4 ∧ k = 7)) := by
  obtain ⟨family, low, high, polyphony⟩ := o
  by_cases hrange : low ≤ high
  · match family with
    | 0 | 1 | 2 | 3 | 4 | _ + 5 => simp [Offer.slot?, hrange, eq_comm]
  · simp [Offer.slot?, hrange]

theorem lowBits_seven_le (b : Byte) : lowBits 7 b ≤ 127 :=
  Nat.le_of_lt_succ (Nat.mod_lt _ (by decide))

/-! ## Quantising (R127) -/

theorem mem_quantisedValues_iff (v : Nat) :
    v ∈ quantisedValues ↔ v ∈ [0, 1, 2, 3, 4, 6, 8, 12, 16, 24, 32, 48, 64] :=
  List.mem_reverse (as := quantisedValues).symm

theorem quantisedValues_pairwise_gt : quantisedValues.Pairwise (· > ·) := by decide

/-- The first value found in the descending list is at most `p`, and every value before it is above `p`. -/
theorem quantisedValues_split_at_quantise (p : Nat) : quantise p ≤ p ∧
    ∃ above below, quantisedValues = above ++ quantise p :: below ∧ ∀ v ∈ above, p < v := by
  have hfound : (quantisedValues.find? (· ≤ p)).isSome := List.find?_isSome.2 ⟨0, by decide, by simp⟩
  obtain ⟨q, hq⟩ := Option.isSome_iff_exists.1 hfound
  have hquantise : quantise p = q := by simp [quantise, hq]
  simpa [hquantise] using List.find?_eq_some_iff_append.1 hq

theorem quantise_le (p : Nat) : quantise p ≤ p :=
  (quantisedValues_split_at_quantise p).1

theorem quantise_mem (p : Nat) : quantise p ∈ quantisedValues := by
  obtain ⟨-, above, below, hsplit, -⟩ := quantisedValues_split_at_quantise p
  simp [hsplit]

theorem le_quantise {p v : Nat} (hv : v ∈ quantisedValues) (hle : v ≤ p) : v ≤ quantise p := by
  obtain ⟨-, above, below, hsplit, habove⟩ := quantisedValues_split_at_quantise p
  have hdesc := quantisedValues_pairwise_gt
  rw [hsplit, List.pairwise_append, List.pairwise_cons] at hdesc
  obtain ⟨-, ⟨hbelow, -⟩, -⟩ := hdesc
  rw [hsplit, List.mem_append, List.mem_cons] at hv
  rcases hv with hv | rfl | hv
  · exact absurd hle (Nat.not_le.2 (habove v hv))
  · exact Nat.le_refl _
  · exact Nat.le_of_lt (hbelow v hv)

/-! ## The offer a slot keeps (R128) -/

/-- `argmax` finds the first element of greatest value: those before it lie below it, those after it not above it. -/
theorem argmax_eq_some_iff_split {α : Type} [DecidableEq α] (f : α → Nat) (l : List α) (a : α) :
    l.argmax f = some a ↔
      ∃ before after, l = before ++ a :: after ∧ (∀ b ∈ before, f b < f a) ∧ ∀ c ∈ after, f c ≤ f a := by
  rw [List.argmax_eq_some_iff]
  constructor
  · rintro ⟨hmem, hmax, hfirst⟩
    obtain ⟨before, after, rfl, hnot⟩ := List.eq_append_cons_of_mem hmem
    refine ⟨before, after, rfl, fun b hb => ?_, fun c hc => hmax c (by simp [hc])⟩
    refine Nat.lt_of_not_le fun hle => ?_
    have hidx := hfirst b (by simp [hb]) hle
    rw [List.idxOf_append_of_notMem hnot, List.idxOf_append_of_mem hb] at hidx
    have hlt := List.idxOf_lt_length_of_mem hb
    omega
  · rintro ⟨before, after, rfl, hbefore, hafter⟩
    have not_before : ∀ x, f a ≤ f x → x ∉ before := fun x hx hmem => Nat.not_lt.2 hx (hbefore x hmem)
    refine ⟨by simp, fun x hx => ?_, fun x _ hx => ?_⟩
    · rw [List.mem_append, List.mem_cons] at hx
      rcases hx with hx | rfl | hx
      · exact Nat.le_of_lt (hbefore x hx)
      · exact Nat.le_refl _
      · exact hafter x hx
    · rw [List.idxOf_append_of_notMem (not_before a (Nat.le_refl _)), List.idxOf_append_of_notMem (not_before x hx),
        List.idxOf_cons_self]
      omega

/-- The running choice of the kept offer is the library's `argmax` of Q over the offers of the slot. -/
theorem keptOffer_eq_argmax (k : Slot) (offers : List Offer) :
    keptOffer k offers =
      ((offers.filter fun o => o.slot? == some k).argmax fun o => quantise o.polyphony).map Offer.detected := by
  rw [keptOffer, List.foldl_map, List.argmax]
  refine List.foldl_hom (Option.map Offer.detected) (init := none) ?_
  rintro (_ | b) o
  · rfl
  · by_cases hgreater : quantise b.polyphony < quantise o.polyphony <;>
      simp [List.argAux, Offer.detected, hgreater]

theorem keptOffer_eq_some_iff (k : Slot) (offers : List Offer) (d : Detected) :
    keptOffer k offers = some d ↔
      ∃ before o after, offers = before ++ o :: after ∧ o.slot? = some k ∧ d = o.detected ∧
        (∀ b ∈ before, b.slot? = some k → quantise b.polyphony < quantise o.polyphony) ∧
        ∀ a ∈ after, a.slot? = some k → quantise a.polyphony ≤ quantise o.polyphony := by
  rw [keptOffer_eq_argmax, Option.map_eq_some_iff]
  constructor
  · rintro ⟨o, hmax, rfl⟩
    obtain ⟨before, after, hsplit, hbefore, hafter⟩ := (argmax_eq_some_iff_split _ _ _).1 hmax
    obtain ⟨l₁, l₂, rfl, rfl, hrest⟩ := List.filter_eq_append_iff.1 hsplit
    obtain ⟨l₃, l₄, rfl, hskipped, hslot, rfl⟩ := List.filter_eq_cons_iff.1 hrest
    refine ⟨l₁ ++ l₃, o, l₄, by simp, by simpa using hslot, rfl, fun b hb hk => ?_, fun a ha hk => ?_⟩
    · rcases List.mem_append.1 hb with hb | hb
      · exact hbefore b (by simp [hb, hk])
      · exact absurd (beq_iff_eq.2 hk) (hskipped b hb)
    · exact hafter a (by simp [ha, hk])
  · rintro ⟨before, o, after, rfl, hslot, rfl, hbefore, hafter⟩
    refine ⟨o, (argmax_eq_some_iff_split _ _ _).2 ?_, rfl⟩
    rw [List.filter_append, List.filter_cons_of_pos (by simp [hslot])]
    exact ⟨_, _, rfl, by simpa using hbefore, by simpa using hafter⟩

theorem keptOffer_filter_classified (k : Slot) (offers : List Offer) :
    keptOffer k (offers.filter fun o => o.slot?.isSome) = keptOffer k offers := by
  have hpred : ∀ o : Offer, ((o.slot? == some k) && o.slot?.isSome) = (o.slot? == some k) := by
    intro o
    cases o.slot? <;> simp
  simp only [keptOffer, List.filter_filter, hpred]

/-- A slot is detected by the offer it keeps, and only where its Q is 1 or more (R127). -/
theorem tableOf_get_eq_some_iff (offers : List Offer) (k : Slot) (d : Detected) :
    (tableOf offers).get k = some d ↔ keptOffer k offers = some d ∧ 1 ≤ d.polyphony := by
  rw [tableOf, PerSlot.get_ofFn]
  cases keptOffer k offers with
  | none => simp
  | some b =>
    by_cases hq : 1 ≤ b.polyphony
    · simp only [hq, if_true, Option.some.injEq, iff_self_and]
      rintro rfl
      exact hq
    · simp only [hq, if_false, Option.some.injEq, reduceCtorEq, false_iff]
      rintro ⟨rfl, hd⟩
      exact hq hd

/-- Only the kept offers of the slots enter the table. -/
theorem tableOf_filter_classified (offers : List Offer) :
    tableOf (offers.filter fun o => o.slot?.isSome) = tableOf offers := by
  simp only [tableOf, keptOffer_filter_classified]

/-! ## The stations that declare a slot, and the share (R131) -/

/-- A live peer whose known fields declare the slot. -/
def PeerRecord.declares (k : Slot) (r : PeerRecord) : Bool :=
  r.live && r.declared.any fun d => SlotMask.has d.mask k

theorem PeerTable.declaring_eq (p : PeerTable) (k : Slot) :
    p.declaring k = 1 + (p.peers.filter (PeerRecord.declares k)).length := by
  rw [PeerTable.declaring]
  refine congrArg (fun l : List PeerRecord => 1 + l.length) (List.filter_congr fun r _ => ?_)
  cases hr : r.declared <;> simp [PeerRecord.declares, hr]

/-- A table of twelve records holds the records of the addresses 1..12, in that order. -/
theorem PeerTable.map_peer_addresses {p : PeerTable} (h : p.peers.length = 12) : addresses.map p.peer = p.peers := by
  refine List.ext_getElem (by simp [addresses, h]) fun i _ hi => ?_
  simp [addresses, PeerTable.peer, List.getElem?_eq_getElem hi]

theorem PeerTable.declaring_eq_addresses {p : PeerTable} (h : p.peers.length = 12) (k : Slot) :
    p.declaring k = 1 + (addresses.filter fun a => (p.peer a).declares k).length := by
  rw [PeerTable.declaring_eq, ← PeerTable.map_peer_addresses h, List.filter_map, List.length_map]
  rfl

theorem mem_addresses {a : Nat} : a ∈ addresses ↔ 1 ≤ a ∧ a ≤ 12 := by
  simp only [addresses, List.mem_map, List.mem_range]
  exact ⟨fun ⟨i, hi, ha⟩ => by omega, fun ⟨h1, h12⟩ => ⟨a - 1, by omega, by omega⟩⟩

/-- The own address is never a live peer (R141), so at most eleven of the twelve addresses declare a slot beside the
station itself. -/
theorem State.declaring_le_twelve {s : State} (hpeers : s.PeersLawful) (hlow : 1 ≤ s.stl.ownAddress)
    (hhigh : s.stl.ownAddress ≤ 12) (k : Slot) : s.ptb.declaring k ≤ 12 := by
  obtain ⟨hlength, -, hown, -⟩ := hpeers
  have hlt : (addresses.filter fun a => (s.ptb.peer a).declares k).length < addresses.length :=
    List.length_filter_lt_length_iff_exists.2
      ⟨s.stl.ownAddress, mem_addresses.2 ⟨hlow, hhigh⟩, by simp [PeerRecord.declares, hown]⟩
  have haddresses : addresses.length = 12 := rfl
  rw [PeerTable.declaring_eq_addresses hlength]
  omega

theorem shareOf_none (n : Nat) : shareOf none n = 0 := rfl

theorem shareOf_of_zero {d : Detected} (h : d.polyphony = 0) (n : Nat) : shareOf (some d) n = 0 := by
  simp [shareOf, h]

theorem shareOf_of_ne_zero {d : Detected} (h : d.polyphony ≠ 0) (n : Nat) :
    shareOf (some d) n = max 1 (d.polyphony / n) := by
  simp [shareOf, h]

theorem shareOf_le (d : Detected) (n : Nat) : shareOf (some d) n ≤ d.polyphony := by
  by_cases h : d.polyphony = 0
  · rw [shareOf_of_zero h]
    exact Nat.zero_le _
  · rw [shareOf_of_ne_zero h]
    exact Nat.max_le.2 ⟨Nat.one_le_iff_ne_zero.2 h, Nat.div_le_self _ _⟩

/-! ## The obligations -/

/-- Settles O20. -/
theorem offersAreClassifiedQuantisedAndKept : Obligations.OffersAreClassifiedQuantisedAndKept := by
  refine ⟨Offer.slot?_eq_some_iff, fun offers => (tableOf_filter_classified offers).symm, fun p => ?_,
    fun offers k d => ?_, fun _ low high _ => ⟨lowBits_seven_le low, lowBits_seven_le high⟩⟩
  · exact ⟨(mem_quantisedValues_iff _).1 (quantise_mem p), quantise_le p,
      fun v hv hle => le_quantise ((mem_quantisedValues_iff v).2 hv) hle⟩
  · rw [tableOf_get_eq_some_iff, keptOffer_eq_some_iff]
    constructor
    · rintro ⟨⟨before, o, after, hsplit, hslot, rfl, hbefore, hafter⟩, hq⟩
      exact ⟨before, o, after, hsplit, hslot, hq, rfl, hbefore, hafter⟩
    · rintro ⟨before, o, after, hsplit, hslot, hq, rfl, hbefore, hafter⟩
      exact ⟨⟨before, o, after, hsplit, hslot, rfl, hbefore, hafter⟩, hq⟩

/-- Settles O21. -/
theorem shareDividesThePolyphony : Obligations.ShareDividesThePolyphony := by
  refine ⟨fun s k hpeers hlow hhigh => ⟨PeerTable.declaring_eq_addresses hpeers.1 k, ?_,
      State.declaring_le_twelve hpeers hlow hhigh k⟩, shareOf_none, fun d n _ => ⟨fun h => shareOf_of_zero h n,
      fun h => ⟨shareOf_of_ne_zero h n, ?_⟩, fun h => (shareOf_le d n).trans h⟩⟩
  · rw [PeerTable.declaring_eq]
    exact Nat.le_add_right 1 _
  · rw [shareOf_of_ne_zero h]
    exact Nat.le_max_left 1 _

end Sys2Proof.Machine
end

section
/-! PROOFS. Steps, time and RESET: the command at the front of the queue, the empty queue, the after-reset values and the
laws they meet, the header of the start record, the timers that do not run, and the two entries a timer rewrites. -/

namespace Sys2Proof.Machine

/-! ## The queue and the passing of time -/

/-- Settles O1. -/
theorem stepTakesTheFrontCommand : Obligations.StepTakesTheFrontCommand :=
  fun _ _ _ => rfl

/-- Settles O2: time stands still while RESET is low and in FAULT, and ticks every timer elsewhere. -/
theorem emptyQueueLetsTimersRunOn : Obligations.EmptyQueueLetsTimersRunOn := by
  refine fun s hempty => ⟨fun hup hfault => ?_, fun hstopped => ?_⟩
  · rw [step_nil s hempty]
    simp [State.elapse, hup, hfault, Timer.tick, LevelUnit.momentPasses]
  · rw [step_nil s hempty]
    rcases hstopped with h | h <;> simp [State.elapse, h]

/-! ## The after-reset values -/

/-- Settles O4. -/
theorem afterResetValuesAreTheTables : Obligations.AfterResetValuesAreTheTables := by
  refine ⟨rfl, rfl, rfl, ?_, ?_, rfl, rfl, rfl, rfl, rfl, rfl, rfl, rfl, rfl⟩
  · decide
  · decide

theorem NoteRoster.lawful_reset : NoteRoster.reset.Lawful := by
  simp [NoteRoster.Lawful, NoteRoster.reset]

theorem NoteRoster.count_reset (k : Slot) : NoteRoster.reset.count k = 0 := rfl

theorem State.rosterEmptyInLoading_reset : State.reset.RosterEmptyInLoading := fun _ => ⟨rfl, rfl⟩

theorem State.countersInRange_reset : State.reset.CountersInRange := by
  unfold State.CountersInRange
  decide

theorem State.heldListLawful_reset : State.reset.HeldListLawful := by
  simp [State.HeldListLawful, State.reset, PlacementUnit.reset]

theorem State.withinLimits_reset : State.reset.WithinLimits :=
  ⟨NoteRoster.lawful_reset, State.rosterEmptyInLoading_reset, fun k => by simp [State.reset, NoteRoster.count_reset]⟩

theorem State.limitsCurrent_reset : State.reset.LimitsCurrent := by
  intro k
  simp [State.reset, OfferUnit.reset, shareOf, limitOf]

theorem State.sectionLevelsCurrent_reset : State.reset.SectionLevelsCurrent := by
  unfold State.SectionLevelsCurrent
  decide

theorem State.levelsInRange_reset : State.reset.LevelsInRange := by
  unfold State.LevelsInRange
  decide

theorem State.peersLawful_reset : State.reset.PeersLawful := by
  have habsent : ∀ p ∈ State.reset.ptb.peers, p = .absent := fun p hp => List.eq_of_mem_replicate hp
  refine ⟨rfl, fun p hp => ?_, rfl, fun _ p hp => ?_⟩
  · rw [habsent p hp]
    simp [PeerRecord.Lawful, PeerRecord.absent]
  · rw [habsent p hp]
    rfl

theorem UpdateTable.get_empty (key : TableKey) : UpdateTable.empty.get key = none := by
  cases key <;> simp [UpdateTable.empty, UpdateTable.get]

theorem State.linkLawful_reset : State.reset.LinkLawful := by
  simp [State.LinkLawful, State.reset, LinkController.reset, UpdateTable.get_empty]

theorem State.suspensionLawful_reset : State.reset.SuspensionLawful := by
  unfold State.SuspensionLawful
  decide

theorem State.timersFitStation_reset : State.reset.TimersFitStation := by
  unfold State.TimersFitStation
  decide

theorem State.troubleTrue_reset : State.reset.TroubleTrue := by
  simp [State.TroubleTrue, State.QuietInLoading, State.working, State.reset, StationControl.reset, BellowsUnit.reset,
    GroupFollower.reset, LinkController.reset]

theorem State.notesLawful_reset : State.reset.NotesLawful := by
  refine ⟨NoteRoster.lawful_reset, State.rosterEmptyInLoading_reset, by simp [State.reset, NoteRoster.reset], ?_, ?_, ?_⟩
  · simp [State.QueueMatchesRoster, State.reset, LinkController.reset, NoteRoster.reset]
  · simp [State.AttemptLawful, State.reset, LinkController.reset, NoteRoster.reset]
  · intro k
    simp [State.reset, LevelUnit.reset, NoteRoster.count_reset]

/-- Settles O5. -/
theorem resetMeetsTheLaws : Obligations.ResetMeetsTheLaws :=
  ⟨State.countersInRange_reset, State.heldListLawful_reset, State.withinLimits_reset, State.limitsCurrent_reset,
    State.sectionLevelsCurrent_reset, State.levelsInRange_reset, State.peersLawful_reset, State.linkLawful_reset,
    State.suspensionLawful_reset, State.timersFitStation_reset, State.troubleTrue_reset, State.notesLawful_reset⟩

/-! ## The header of the start record -/

/-- Settles O6. -/
theorem headerReadTellsBlankFromWritten : Obligations.HeaderReadTellsBlankFromWritten := by
  intro s b0 b1 b2 b3 hup
  have hexec : exec (.startRecordHeaderRead b0 b1 b2 b3) s = .next (s.headerRead b0 b1 b2 b3) :=
    congrArg _ (State.whenUp_of_up hup _)
  rw [hexec]
  refine ⟨fun hloading hport => ⟨fun hblank => ?_, fun hwritten => ?_⟩, fun hother => ?_⟩
  · refine ⟨s.enterFault .blank, ?_, rfl, rfl, ?_, rfl⟩
    · simp [State.headerRead, hloading, hport, State.readHeader, hblank]
    · simp [State.faultPin, State.enterFault_eq, hup]
  · have hread : s.headerRead b0 b1 b2 b3 = s.readHeader b0 b1 b2 b3 := by simp [State.headerRead, hloading, hport]
    rw [hread]
    exact congrArg _ (if_neg hwritten)
  · have hnot : ¬(s.stc.station = .loading ∧ s.stl.port = .header) := by
      rintro ⟨h1, h2⟩
      rcases hother with h | h <;> contradiction
    simp [State.headerRead, hnot]

/-! ## Timers that do not run -/

/-- A command whose meaning leaves the state as it stands while RESET is high changes nothing. -/
theorem State.whenUp_eq_self {s : State} {f : State → State} (h : f s = s) : s.whenUp f = s := by
  unfold State.whenUp
  split
  · rfl
  · exact h

/-- Settles O16: each expiry asks first whether its timer runs. -/
theorem stoppedTimersDoNotExpire : Obligations.StoppedTimersDoNotExpire := by
  intro s
  refine ⟨fun h => ?_, fun h => ?_, fun h => ?_, fun h => ⟨?_, fun closed => ?_⟩, fun h closed => ?_, fun h => ?_,
    fun h => ?_, fun h => ?_, fun h => ?_, fun h => ?_, fun h => ?_, fun a h => ?_, fun h => ?_, fun h => ?_,
    fun tag h => ?_⟩
  all_goals refine congrArg _ (State.whenUp_eq_self ?_)
  · simp [State.listenExpiry, h]
  · simp [State.joinExpiry, h]
  · simp [State.drainExpiry, h]
  · simp [State.scanExpiry, State.mayScan, h]
  · simp [State.scanExpiry, State.mayScan, h]
  · simp [State.scanExpiry, h]
  · simp [State.sampleExpiry, h]
  · simp [State.heartbeatExpiry, h]
  · simp [State.staleExpiry, h]
  · simp [State.lostExpiry, h]
  · simp [State.breathExpiry, h]
  · simp [State.presenceExpiry, h]
  · simp [State.peerExpiry, h]
  · simp [State.livenessExpiry, h]
  · simp [State.linkDropExpiry, h]
  · unfold State.staccatoExpiry
    split
    · cases he : s.entry? tag with
      | none => rfl
      | some e =>
        obtain ⟨hmem, htag⟩ := State.entry?_mem he
        rcases h e hmem htag with hd | hend
        · simp [hd]
        · simp [RosterEntry.active, hend]
    · rfl

/-! ## The entries a timer rewrites -/

/-- What a write does to the attempt in flight: an attempt of the written entry is marked, every other stands (R155). -/
theorem State.writeEntry_tx (s : State) (key : TableKey) (f : OutFrame) :
    (s.writeEntry key f).lkc.tx = s.lkc.tx.map fun a =>
      if a.source = .table key then { a with rewritten := true, withdraw := false } else a := by
  rw [State.writeEntry_eq]
  unfold State.keyInFlight
  cases s.lkc.tx with
  | none => simp
  | some a => by_cases h : a.source = .table key <;> simp [h]

/-- A write changes the table's entry and marks an attempt of that entry, and nothing else. -/
theorem State.writeEntry_eq_mark (s : State) (key : TableKey) (f : OutFrame) :
    s.writeEntry key f = { s with lkc := { s.lkc with
      updates := s.lkc.updates.put key (some ⟨f, 0⟩)
      tx := s.lkc.tx.map fun a =>
        if a.source = .table key then { a with rewritten := true, withdraw := false } else a } } := by
  rw [← State.writeEntry_tx s key f, State.writeEntry_eq]

/-- Settles O30. -/
theorem heartbeatAndPresenceAreRewritten : Obligations.HeartbeatAndPresenceAreRewritten := by
  refine fun s hup => ⟨fun hrun hphase htimer => ⟨s.writeBellows, ?_, ?_, ?_⟩,
    fun hworking htimer => ⟨s.writePresence, ?_, ?_, ?_⟩⟩
  · refine congrArg _ ((State.whenUp_of_up hup _).trans ?_)
    simp [State.heartbeatExpiry, State.bellowsWrites, hrun, hphase, htimer]
  · simp [State.writeBellows, UpdateTable.put]
  · simp only [State.writeBellows, State.writeEntry_eq_mark]
    rfl
  · refine congrArg _ ((State.whenUp_of_up hup _).trans ?_)
    simp [State.presenceExpiry, hworking, htimer]
  · simp [State.writePresence, UpdateTable.put]
  · simp only [State.writePresence, State.writeEntry_eq_mark]
    rfl

end Sys2Proof.Machine
end

section
/-! PROOFS. The moves a note path is made of: every operation of the Placement Unit and of the Note Roster's trims, panics
and refreshes is a run of a few kinds of move, so that a law kept by each move is kept by every operation. -/

namespace Sys2Proof.Machine

/-! ## The moves -/

/-- One move of the note path: a count, a change of the Placement Unit that keeps the held contacts, a record appended or
dropped, a holder given up, an entry ended, a request answered, the marks and the BOW of a reversal, the refresh and the
LEVEL writes of a restart report, and the two changes of the waiting request's answer. -/
inductive NoteMove : State → State → Prop
  | unplaced (s : State) : NoteMove s s.countUnplaced
  | misses (s : State) (n : Nat) : NoteMove s (s.countMisses n)
  | overflow (s : State) : NoteMove s s.countHeldOverflow
  | plu (s : State) (x : PlacementUnit) (hx : x.held.map (·.contact) = s.plu.held.map (·.contact)) :
    NoteMove s (s.setPlu x)
  | append (s : State) (c n : Nat) (pair : PairName) (st : RecordState) (hnew : c ∉ s.plu.held.map (·.contact))
    (hroom : s.plu.held.length < 24) : NoteMove s (s.appendRecord c n pair st)
  | drop (s : State) (c : Nat) : NoteMove s (s.setPlu { s.plu with held := s.plu.held.filter (·.contact != c) })
  | release (s : State) (tag : Nat) : NoteMove s (s.mapEntry tag fun e => { e with holders := e.holders - 1 })
  | ending (s : State) (tag : Nat) (a : EndArticulation) : NoteMove s (s.endEntry tag a)
  | request (s : State) (r : NoteRequest) : NoteMove s (s.answerRequest r).2
  | turnMark (s : State) : NoteMove s (s.setNrs { s.nrs with
      roster := s.nrs.roster.map fun e => { e with soundingAtTurn := e.state == .sounding } })
  | withdrawBow (s : State) (h : s.bowInFlight = false) : NoteMove s s.withdrawBow
  | bow (s : State) (d : Direction) (mask : SlotMask) (h : ∀ q ∈ s.lkc.noteQueue, q.frame.isBow = false) :
    NoteMove s (s.enqueue (.bow d mask))
  | refresh (s : State) : NoteMove s s.refresh
  | restart (s : State) : NoteMove s s.restartLevels
  | answerOwed (s : State) : NoteMove s (s.setNrs { s.nrs with answerOwed := s.nrs.waiting.isSome })
  | settle (s : State) : NoteMove s (s.setNrs { s.nrs with waiting := none, answerOwed := false })

/-- A run of moves of the note path. -/
def NoteMoves : State → State → Prop := Relation.ReflTransGen NoteMove

namespace NoteMoves

theorem refl (s : State) : NoteMoves s s := Relation.ReflTransGen.refl

theorem one {s t : State} (h : NoteMove s t) : NoteMoves s t := Relation.ReflTransGen.single h

theorem trans {s t u : State} (h : NoteMoves s t) (g : NoteMoves t u) : NoteMoves s u := Relation.ReflTransGen.trans h g

/-- A law kept by every move is kept by every run of moves. -/
theorem keeps {P : State → Prop} (hP : ∀ s t, NoteMove s t → P s → P t) {s t : State} (h : NoteMoves s t) (hs : P s) :
    P t := by
  induction h with
  | refl => exact hs
  | tail _ hmove ih => exact hP _ _ hmove ih

theorem foldl {α : Type} {f : State → α → State} (hf : ∀ s a, NoteMoves s (f s a)) (l : List α) (s : State) :
    NoteMoves s (l.foldl f s) := by
  induction l generalizing s with
  | nil => exact refl s
  | cons a l ih => exact (hf s a).trans (ih _)

/-! ## The Placement Unit's own fields -/

theorem setPlu (s : State) {x : PlacementUnit} (hx : x.held.map (·.contact) = s.plu.held.map (·.contact)) :
    NoteMoves s (s.setPlu x) := one (.plu s x hx)

theorem mapHeld (s : State) {f : HeldRecord → HeldRecord} (hf : ∀ r, (f r).contact = r.contact) {x : PlacementUnit}
    (hx : x.held = s.plu.held.map f) : NoteMoves s (s.setPlu x) :=
  setPlu s (by simp [hx, Function.comp_def, hf])

theorem mapRecord (s : State) (c : Nat) {f : HeldRecord → HeldRecord} (hf : ∀ r, (f r).contact = r.contact) :
    NoteMoves s (s.mapRecord c f) :=
  mapHeld s (f := fun r => if r.contact = c then f r else r) (fun r => by split <;> simp [hf]) rfl

theorem appendTag (s : State) (c tag : Nat) : NoteMoves s (s.appendTag c tag) := mapRecord s c fun _ => rfl

theorem removeTag (s : State) (tag : Nat) : NoteMoves s (s.removeTag tag) :=
  mapHeld s (f := fun r => { r with tags := r.tags.filter (· != tag) }) (fun _ => rfl) (by rfl)

/-! ## Endings -/

theorem endEntry (s : State) (tag : Nat) (a : EndArticulation) : NoteMoves s (s.endEntry tag a) := one (.ending s tag a)

theorem endVictim (s : State) (tag : Nat) (a : EndArticulation) : NoteMoves s (s.endVictim tag a) :=
  (endEntry s tag a).trans (removeTag _ tag)

theorem releaseHolder (s : State) (a : EndArticulation) (tag : Nat) : NoteMoves s (s.releaseHolder a tag) := by
  rcases State.releaseHolder_cases s a tag with h | ⟨e, -, -, h⟩ <;> rw [h]
  · exact refl s
  · split
    · exact (one (.release s tag)).trans (endEntry _ tag a)
    · exact one (.release s tag)

theorem releaseAll (a : EndArticulation) (tags : List Nat) (s : State) :
    NoteMoves s (tags.foldl (State.releaseHolder · a) s) :=
  foldl (fun t => releaseHolder t a) tags s

theorem trimOldest (k : Slot) (a : EndArticulation) (n : Nat) (s : State) : NoteMoves s (State.trimOldest k a n s) := by
  induction n generalizing s with
  | zero => exact refl s
  | succ n ih =>
    unfold State.trimOldest
    split
    · exact refl s
    · exact (endVictim s _ a).trans (ih _)

theorem trimAll (s : State) : NoteMoves s s.trimAll :=
  foldl (fun t k => trimOldest k _ _ t) _ s

theorem rosterPanic (s : State) : NoteMoves s s.rosterPanic :=
  (foldl (fun t (e : RosterEntry) => endEntry t e.tag .panic) _ s).trans (one (.answerOwed _))

theorem panic (s : State) : NoteMoves s s.panic := by
  unfold State.panic
  split
  · exact (mapHeld s (f := HeldRecord.silenced) (fun _ => rfl) (by rfl)).trans (rosterPanic _)
  · exact refl s

/-! ## Placements -/

theorem sendRequests (c : Nat) (rs : List NoteRequest) (s : State) : NoteMoves s (State.sendRequests c rs s).1 := by
  induction rs generalizing s with
  | nil => exact refl s
  | cons r rs ih =>
    have h : NoteMoves s (s.answerRequest r).2 := one (.request s r)
    unfold State.sendRequests
    split <;> (rename_i heq; rw [heq] at h)
    · exact (h.trans (appendTag _ c _)).trans (ih _)
    · exact h.trans (ih _)
    · exact h

theorem placeRecord (s : State) (c : Nat) : NoteMoves s (s.placeRecord c) := by
  unfold State.placeRecord
  split
  · exact refl s
  · rename_i r _
    have h := ((mapRecord s c (f := fun x => { x with state := .placed, direction := s.grf.direction })
      fun _ => rfl).trans (one (.misses _ (s.lookupRecord r).misses))).trans
        (sendRequests c ((s.lookupRecord r).requests .placement) _)
    dsimp only
    split <;> (rename_i heq; rw [heq] at h)
    · exact h
    · exact h.trans (setPlu _ (by rfl))

theorem placeAll (cs : List Nat) (s : State) : NoteMoves s (State.placeAll cs s) := by
  induction cs generalizing s with
  | nil => exact setPlu s (by rfl)
  | cons c cs ih =>
    have h : NoteMoves s ((s.setPlu { s.plu with owed := cs }).placeRecord c) :=
      (setPlu s (by rfl)).trans (placeRecord _ c)
    unfold State.placeAll
    dsimp only
    split
    · exact h
    · exact h.trans (ih _)

/-! ## Fades and reversals -/

theorem fadeRecord (s : State) (r : HeldRecord) : NoteMoves s (s.fadeRecord r) := by
  unfold State.fadeRecord
  split
  · exact (releaseAll .fade r.tags s).trans (mapRecord _ _ fun _ => rfl)
  · exact refl s

theorem fade (s : State) : NoteMoves s s.fade := (foldl fadeRecord _ s).trans (setPlu _ (by rfl))

theorem takeFall (s : State) : NoteMoves s s.takeFall := by
  unfold State.takeFall
  split
  · split
    · exact fade s
    · exact setPlu s (by rfl)
  · exact refl s

theorem releaseUnmatched (s : State) (m : Matched) : NoteMoves s (s.releaseUnmatched m) :=
  (mapRecord s m.contact (f := fun r => { r with tags := m.kept }) fun _ => rfl).trans (releaseAll .reversal _ _)

theorem sendBow {s : State} (h : s.bowInFlight = false → ∀ q ∈ s.lkc.noteQueue, q.frame.isBow = false) (d : Direction)
    (mask : SlotMask) : NoteMoves s (s.sendBow d mask) := by
  unfold State.sendBow
  split
  · exact setPlu s (by rfl)
  · rename_i hbow
    exact one (.bow s d mask (h (by simpa using hbow)))

theorem withdrawBow_none (s : State) : ∀ q ∈ s.withdrawBow.lkc.noteQueue, q.frame.isBow = false := by
  intro q hq
  simpa using (List.mem_filter.1 hq).2

theorem reversalFourth (s : State) (contacts : List Nat) : NoteMoves s (s.reversalFourth contacts) := by
  have hrest : ∀ u : State, (u.bowInFlight = false → ∀ q ∈ u.lkc.noteQueue, q.frame.isBow = false) →
      ∀ mask : SlotMask, NoteMoves u (
        let v := u.setPlu { u.plu with owedBow := none }
        if mask = 0#8 then v else v.sendBow v.grf.direction mask) := by
    intro u hnone mask
    have hcleared : NoteMoves u (u.setPlu { u.plu with owedBow := none }) := setPlu u (by rfl)
    dsimp only
    split
    · exact hcleared
    · exact hcleared.trans (sendBow (s := u.setPlu { u.plu with owedBow := none }) hnone _ _)
  unfold State.reversalFourth
  cases hbow : s.bowInFlight with
  | true => exact hrest s (by simp [hbow]) _
  | false => exact (one (.withdrawBow s hbow)).trans (hrest s.withdrawBow (fun _ => withdrawBow_none s) _)

theorem reversalThird (contacts : List Nat) (later : List (Nat × List NoteRequest)) (s : State) :
    NoteMoves s (State.reversalThird contacts later s) := by
  induction later generalizing s with
  | nil => exact reversalFourth s contacts
  | cons p later ih =>
    obtain ⟨c, rs⟩ := p
    have h := sendRequests c rs s
    unfold State.reversalThird
    split <;> (rename_i heq; rw [heq] at h)
    · exact h.trans (ih _)
    · exact h.trans (setPlu _ (by rfl))

theorem reversalFirst (s : State) (found : List Reversed) : NoteMoves s (s.reversalFirst found) :=
  ((one (.turnMark s)).trans (mapHeld _
    (f := fun r => if (found.map (·.contact)).contains r.contact then { r with direction := s.grf.direction } else r)
    (fun r => by split <;> rfl) (by rfl))).trans (one (.misses _ _))

theorem reversal (s : State) : NoteMoves s s.reversal :=
  ((reversalFirst s _).trans (foldl releaseUnmatched _ _)).trans (reversalThird _ _ _)

/-! ## Presses, releases and what waits behind a request -/

theorem takePress (s : State) (c n : Nat) (kind : ButtonKind) (shiftHeld : Bool) :
    NoteMoves s (s.takePress c n kind shiftHeld) := by
  unfold State.takePress
  split
  · exact refl s
  · rename_i hnew
    split
    · exact one (.overflow s)
    · rename_i hroom
      have happend : ∀ pair st, NoteMoves s (s.appendRecord c n pair st) := fun pair st =>
        one (.append s c n pair st (by simpa using hnew) (by omega))
      dsimp only
      split
      · split
        · exact happend _ _
        · exact (happend _ _).trans (placeRecord _ c)
      · exact happend _ _

theorem takeRelease (s : State) (c : Nat) : NoteMoves s (s.takeRelease c) := by
  unfold State.takeRelease
  split
  · exact refl s
  · exact (releaseAll .normal _ s).trans (one (.drop _ c))

theorem takeEvent (s : State) (e : PlacementEvent) : NoteMoves s (s.takeEvent e) := by
  cases e with
  | press c n kind shiftHeld => exact takePress s c n kind shiftHeld
  | release c => exact takeRelease s c
  | turn => exact reversal s
  | fall => exact takeFall s
  | breathExpiry => exact fade s

theorem placementEvent (s : State) (e : PlacementEvent) : NoteMoves s (s.placementEvent e) := by
  unfold State.placementEvent
  split
  · split
    · exact setPlu s (by rfl)
    · exact takeEvent s e
  · exact refl s

theorem takeHeld (es : List PlacementEvent) (s : State) : NoteMoves s (State.takeHeld es s) := by
  induction es generalizing s with
  | nil => exact setPlu s (by rfl)
  | cons e es ih =>
    have h : NoteMoves s ((s.setPlu { s.plu with heldEvents := es }).takeEvent e) :=
      (setPlu s (by rfl)).trans (takeEvent _ e)
    unfold State.takeHeld
    dsimp only
    split
    · exact h
    · exact h.trans (ih _)

theorem afterOperation (s : State) : NoteMoves s s.afterOperation := by
  unfold State.afterOperation
  split
  · exact refl s
  · dsimp only
    split
    · exact placeAll _ s
    · exact (placeAll _ s).trans (takeHeld _ _)

theorem continueOperation (s : State) (op : Operation) : NoteMoves s (s.continueOperation op) := by
  have h := sendRequests op.record op.requests s
  unfold State.continueOperation
  split <;> (rename_i heq; rw [heq] at h)
  · exact h.trans (setPlu _ (by rfl))
  · split
    · exact h
    · exact h.trans (reversalThird _ _ _)

theorem answered (s : State) (op : Operation) (tag : Option Nat) : NoteMoves s (s.answered op tag) := by
  have h : NoteMoves s (s.setPlu { s.plu with suspended := none }) := setPlu s (by rfl)
  unfold State.answered
  cases tag with
  | none => exact (h.trans (continueOperation _ op)).trans (afterOperation _)
  | some t => exact ((h.trans (appendTag _ op.record t)).trans (continueOperation _ op)).trans (afterOperation _)

theorem answeredByPanic (s : State) : NoteMoves s s.answeredByPanic := (setPlu s (by rfl)).trans (afterOperation _)

theorem levelRise (s : State) : NoteMoves s s.levelRise := by
  have hcalm : NoteMoves s (s.setPlu { s.plu with
      breathTimer := none
      heldEvents := s.plu.heldEvents.filter (· != .breathExpiry) }) := setPlu s (by rfl)
  unfold State.levelRise
  dsimp only
  split
  · have hrise : ∀ u : State, ∀ owed, NoteMoves u (u.setPlu { u.plu with
        held := u.plu.held.map fun r => if r.state = .armed then { r with state := .placed } else r
        owed := owed }) := fun u owed =>
      mapHeld u (f := fun r => if r.state = .armed then { r with state := .placed } else r)
        (fun r => by split <;> rfl) rfl
    split
    · exact hcalm.trans (hrise _ _)
    · exact (hcalm.trans (hrise _ _)).trans (placeAll _ _)
  · exact hcalm

theorem groupChange (s : State) (turned rose fell : Bool) : NoteMoves s (s.groupChange turned rose fell) := by
  unfold State.groupChange
  split
  · have hrise : NoteMoves s (if rose then s.levelRise else s) := by
      split
      · exact levelRise s
      · exact refl s
    have hturn : ∀ t : State, NoteMoves t (if turned then t.placementEvent .turn else t) := by
      intro t
      split
      · exact placementEvent t _
      · exact refl t
    dsimp only
    split
    · exact (hrise.trans (hturn _)).trans (placementEvent _ _)
    · exact hrise.trans (hturn _)
  · exact refl s

end NoteMoves

/-! ## The request that waited -/

/-- The waiting request taken up again: none waits any more, and none is owed an answer (R77, R92). -/
def State.taken (s : State) : State :=
  match s.nrs.waiting with
  | none => s
  | some _ => s.setNrs { s.nrs with waiting := none, answerOwed := false }

theorem State.taken_of_none {s : State} (h : s.nrs.waiting = none) : s.taken = s := by
  simp [State.taken, h]

theorem State.taken_of_some {s : State} {r : NoteRequest} (h : s.nrs.waiting = some r) :
    s.taken = s.setNrs { s.nrs with waiting := none, answerOwed := false } := by
  simp [State.taken, h]

/-- Handling the waiting request again is a run of moves from the state in which it no longer waits. -/
theorem NoteMoves.retryWaiting (s : State) : NoteMoves s.taken s.retryWaiting := by
  unfold State.retryWaiting
  cases hw : s.nrs.waiting with
  | none =>
    rw [State.taken_of_none hw]
    exact refl s
  | some r =>
    rw [State.taken_of_some hw]
    set s1 := s.setNrs { s.nrs with waiting := none, answerOwed := false }
    dsimp only
    split
    · exact (one (.unplaced s1)).trans (answeredByPanic _)
    · have h : NoteMoves s1 (s1.answerRequest r).2 := one (.request s1 r)
      revert h
      obtain ⟨a, s2⟩ := s1.answerRequest r
      intro h
      cases s1.plu.suspended with
      | none => exact h
      | some op =>
        cases a with
        | tag t => exact h.trans (answered _ _ _)
        | unplaced => exact h.trans (answered _ _ _)
        | waits => exact h

end Sys2Proof.Machine
end

section
/-! PROOFS. The suspension of the Placement Unit on the note path: an operation is suspended exactly while a request waits,
and what is owed or held waits behind it (section 4.4, R57, R58, R77, R92). -/

namespace Sys2Proof.Machine

namespace State

/-- What the law of the suspension reads. -/
def waits (s : State) : Option Operation × List Nat × List PlacementEvent × Option NoteRequest × Bool :=
  (s.plu.suspended, s.plu.owed, s.plu.heldEvents, s.nrs.waiting, s.nrs.answerOwed)

/-- An operation is suspended exactly while a request waits, and an answer is owed only to one that waits: the law without
what waits behind the operation. -/
def Agrees (s : State) : Prop :=
  s.plu.suspended.isSome = s.nrs.waiting.isSome ∧ (s.nrs.answerOwed = true → s.nrs.waiting.isSome = true)

theorem suspensionLawful_iff {s : State} : s.SuspensionLawful ↔
    s.Agrees ∧ (s.plu.suspended = none → s.plu.owed = [] ∧ s.plu.heldEvents = []) :=
  ⟨fun ⟨h1, h2, h3⟩ => ⟨⟨h1, h3⟩, h2⟩, fun ⟨⟨h1, h3⟩, h2⟩ => ⟨h1, h2, h3⟩⟩

theorem waits_eq_iff {s t : State} : t.waits = s.waits ↔ t.plu.suspended = s.plu.suspended ∧ t.plu.owed = s.plu.owed ∧
    t.plu.heldEvents = s.plu.heldEvents ∧ t.nrs.waiting = s.nrs.waiting ∧ t.nrs.answerOwed = s.nrs.answerOwed := by
  simp only [waits, Prod.mk.injEq]

theorem Agrees.of_waits {s t : State} (h : t.waits = s.waits) (hs : s.Agrees) : t.Agrees := by
  obtain ⟨h1, -, -, h4, h5⟩ := waits_eq_iff.1 h
  unfold Agrees
  rwa [h1, h4, h5]

theorem SuspensionLawful.of_waits {s t : State} (h : t.waits = s.waits) (hs : s.SuspensionLawful) :
    t.SuspensionLawful := by
  obtain ⟨h1, h2, h3, h4, h5⟩ := waits_eq_iff.1 h
  unfold SuspensionLawful
  rwa [h1, h2, h3, h4, h5]

theorem waits_of_plu_nrs {s t : State} (hplu : t.plu = s.plu) (hnrs : t.nrs = s.nrs) : t.waits = s.waits := by
  simp only [waits, hplu, hnrs]

theorem LevelsOnly.waits_eq {s t : State} (h : LevelsOnly s t) : t.waits = s.waits := waits_of_plu_nrs h.plu_eq h.nrs_eq

theorem waits_foldl {α : Type} {f : State → α → State} (hf : ∀ s a, (f s a).waits = s.waits) (l : List α) (s : State) :
    (l.foldl f s).waits = s.waits := by
  induction l generalizing s with
  | nil => rfl
  | cons a l ih => exact (ih _).trans (hf s a)

/-! ## Operations that leave the suspension -/

theorem reportCount_waits (s : State) (k : Slot) : (s.reportCount k).waits = s.waits := (LevelsOnly.reportCount s k).waits_eq

theorem countIfStolen_waits (s : State) (a : EndArticulation) : (s.countIfStolen a).waits = s.waits :=
  waits_of_plu_nrs (s.countIfStolen_plu a) (s.countIfStolen_nrs a)

theorem queueStop_waits (s : State) (tag : Nat) (a : EndArticulation) : (s.queueStop tag a).waits = s.waits :=
  (countIfStolen_waits _ a).trans rfl

theorem endEntry_waits (s : State) (tag : Nat) (a : EndArticulation) : (s.endEntry tag a).waits = s.waits := by
  rcases endEntry_cases s tag a with ⟨-, h⟩ | ⟨e, -, h⟩
  · rw [h]
  · rcases h with ⟨-, h⟩ | ⟨-, -, h⟩ | ⟨-, -, h⟩ | ⟨-, -, -, h⟩ | ⟨-, -, h⟩ <;> rw [h]
    · exact (reportCount_waits _ _).trans rfl
    · exact (reportCount_waits _ _).trans rfl
    · exact (reportCount_waits _ _).trans ((countIfStolen_waits _ a).trans rfl)
    · exact (reportCount_waits _ _).trans ((queueStop_waits _ tag a).trans rfl)

theorem endVictim_waits (s : State) (tag : Nat) (a : EndArticulation) : (s.endVictim tag a).waits = s.waits :=
  endEntry_waits s tag a

theorem releaseHolder_waits (s : State) (a : EndArticulation) (tag : Nat) : (s.releaseHolder a tag).waits = s.waits := by
  rcases releaseHolder_cases s a tag with h | ⟨e, -, -, h⟩ <;> rw [h]
  split
  · exact (endEntry_waits _ tag a).trans rfl
  · rfl

theorem trimOldest_waits (k : Slot) (a : EndArticulation) (n : Nat) (s : State) :
    (trimOldest k a n s).waits = s.waits := by
  induction n generalizing s with
  | zero => rfl
  | succ n ih =>
    unfold trimOldest
    split
    · rfl
    · exact (ih _).trans (endVictim_waits s _ a)

theorem trimAll_waits (s : State) : s.trimAll.waits = s.waits := waits_foldl (fun t k => trimOldest_waits k _ _ t) _ s

theorem refresh_waits (s : State) : s.refresh.waits = s.waits := by
  refine waits_foldl (fun t e => ?_) _ s
  unfold refreshEntry
  split <;> rfl

theorem restartLevels_waits (s : State) : s.restartLevels.waits = s.waits := (LevelsOnly.restartLevels s).waits_eq

theorem fade_waits (s : State) : s.fade.waits = s.waits := by
  refine (waits_foldl (f := fadeRecord) (fun t r => ?_) _ s).trans rfl
  unfold fadeRecord
  split
  · exact (waits_foldl (fun u tag => releaseHolder_waits u _ tag) r.tags t).trans rfl
  · rfl

theorem takeFall_waits (s : State) : s.takeFall.waits = s.waits := by
  unfold takeFall
  split
  · split
    · exact fade_waits s
    · rfl
  · rfl

theorem takeRelease_waits (s : State) (c : Nat) : (s.takeRelease c).waits = s.waits := by
  unfold takeRelease
  split
  · rfl
  · exact (show _ = _ from rfl).trans (waits_foldl (fun u tag => releaseHolder_waits u _ tag) _ s)

/-! ## Requests -/

theorem newEntry_waits (s : State) (r : NoteRequest) (k : Slot) (pitch : Nat) :
    (s.newEntry r k pitch).2.waits = s.waits := (reportCount_waits _ k).trans rfl

theorem capacityStep_waits (s : State) (r : NoteRequest) (k : Slot) (pitch : Nat) :
    (s.capacityStep r k pitch).2.waits = s.waits := by
  unfold capacityStep
  split
  · exact newEntry_waits s r k pitch
  · split
    · rfl
    · dsimp only
      split
      · exact (newEntry_waits _ r k pitch).trans (endVictim_waits s _ _)
      · exact endVictim_waits s _ _

theorem newNote_waits (s : State) (r : NoteRequest) (k : Slot) (pitch : Nat) :
    (s.newNote r k pitch).2.waits = s.waits := by
  unfold newNote
  split
  · exact capacityStep_waits s r k pitch
  · split
    · rfl
    · split
      · exact capacityStep_waits s r k pitch
      · exact (capacityStep_waits _ r k pitch).trans (endVictim_waits s _ _)

theorem revive_waits (s : State) (r : NoteRequest) (e : RosterEntry) : (s.revive r e).2.waits = s.waits := by
  unfold revive
  split
  · refine (reportCount_waits _ _).trans ?_
    split <;> rfl
  · rfl

/-- A request makes itself wait, and is answered so, or leaves the suspension. -/
theorem handleRequest_waits (s : State) (r : NoteRequest) :
    ((s.handleRequest r).1 = .waits ∧ (s.handleRequest r).2 = s.setNrs { s.nrs with waiting := some r }) ∨
      ((s.handleRequest r).1 ≠ .waits ∧ (s.handleRequest r).2.waits = s.waits) := by
  have hnew : ∀ k pitch, (s.newNote r k pitch).1 ≠ .waits := by
    intro k pitch
    have hcap : ∀ u : State, (u.capacityStep r k pitch).1 ≠ .waits := by
      intro u
      unfold capacityStep newEntry
      split
      · exact Answer.noConfusion
      · split
        · exact Answer.noConfusion
        · dsimp only
          split <;> exact Answer.noConfusion
    unfold newNote
    split
    · exact hcap s
    · split
      · exact Answer.noConfusion
      · split
        · exact hcap s
        · exact hcap _
  unfold handleRequest
  split
  · exact .inr ⟨Answer.noConfusion, rfl⟩
  · split
    · exact .inr ⟨hnew _ _, newNote_waits s r _ _⟩
    · split
      · exact .inr ⟨Answer.noConfusion, rfl⟩
      · split
        · exact .inl ⟨rfl, rfl⟩
        · refine .inr ⟨?_, revive_waits s r _⟩
          unfold revive
          split <;> exact Answer.noConfusion

theorem answerRequest_waits (s : State) (r : NoteRequest) :
    ((s.answerRequest r).1 = .waits ∧ (s.answerRequest r).2 = s.setNrs { s.nrs with waiting := some r }) ∨
      ((s.answerRequest r).1 ≠ .waits ∧ (s.answerRequest r).2.waits = s.waits) := by
  have h := handleRequest_waits s r
  unfold answerRequest
  split
  · rename_i t heq
    rw [heq] at h
    rcases h with ⟨h, -⟩ | ⟨-, h⟩
    · cases h
    · exact .inr ⟨Answer.noConfusion, h⟩
  · exact h

/-- Requests sent in turn leave the suspension where all are answered, and otherwise make one wait. -/
theorem sendRequests_waits (c : Nat) (rs : List NoteRequest) (s : State) :
    ((sendRequests c rs s).2 = none ∧ (sendRequests c rs s).1.waits = s.waits) ∨
      ∃ (rest : List NoteRequest) (u : State) (r : NoteRequest), (sendRequests c rs s).2 = some rest ∧ u.waits = s.waits ∧
        (sendRequests c rs s).1 = u.setNrs { u.nrs with waiting := some r } := by
  induction rs generalizing s with
  | nil => exact .inl ⟨rfl, rfl⟩
  | cons r rs ih =>
    have h := answerRequest_waits s r
    unfold sendRequests
    split <;> (rename_i heq; rw [heq] at h)
    · rename_i t s1
      have hs1 : (s1.appendTag c t).waits = s.waits := (h.resolve_left fun h => Answer.noConfusion h.1).2
      rcases ih (s1.appendTag c t) with ⟨h1, h2⟩ | ⟨rest, u, r', h1, h2, h3⟩
      · exact .inl ⟨h1, h2.trans hs1⟩
      · exact .inr ⟨rest, u, r', h1, h2.trans hs1, h3⟩
    · rename_i s1
      have hs1 : s1.waits = s.waits := (h.resolve_left fun h => Answer.noConfusion h.1).2
      rcases ih s1 with ⟨h1, h2⟩ | ⟨rest, u, r', h1, h2, h3⟩
      · exact .inl ⟨h1, h2.trans hs1⟩
      · exact .inr ⟨rest, u, r', h1, h2.trans hs1, h3⟩
    · exact .inr ⟨rs, s, r, rfl, rfl, (h.resolve_right fun h => h.1 rfl).2⟩

theorem waits_of_sendRequests {c : Nat} {rs : List NoteRequest} {s t : State} (h : sendRequests c rs s = (t, none)) :
    t.waits = s.waits := by
  rcases sendRequests_waits c rs s with ⟨-, g⟩ | ⟨rest, u, r, g, -⟩ <;> rw [h] at g
  · exact g
  · cases g

theorem waiting_of_sendRequests {c : Nat} {rs rest : List NoteRequest} {s t : State}
    (h : sendRequests c rs s = (t, some rest)) :
    ∃ (u : State) (r : NoteRequest), u.waits = s.waits ∧ t = u.setNrs { u.nrs with waiting := some r } := by
  rcases sendRequests_waits c rs s with ⟨g, -⟩ | ⟨rest', u, r, -, hu, g⟩ <;> rw [h] at g
  · cases g
  · exact ⟨u, r, hu, g⟩

/-! ## Operations that may suspend -/

/-- From `s`, in which no operation is suspended, to `t`: the two agree, and what waits behind an operation stands. -/
def Suspends (s t : State) : Prop :=
  t.Agrees ∧ t.plu.owed = s.plu.owed ∧ t.plu.heldEvents = s.plu.heldEvents

namespace Suspends

theorem of_waits {s t : State} (h : t.waits = s.waits) (hs : s.Agrees) : Suspends s t := by
  obtain ⟨-, h2, h3, -⟩ := waits_eq_iff.1 h
  exact ⟨hs.of_waits h, h2, h3⟩

theorem trans {s t u : State} (h : Suspends s t) (g : Suspends t u) : Suspends s u :=
  ⟨g.1, g.2.1.trans h.2.1, g.2.2.trans h.2.2⟩

/-- A request that waits is met by the operation suspended at it. -/
theorem suspended {s u : State} (h : u.waits = s.waits) (r : NoteRequest) (op : Operation) :
    Suspends s ((u.setNrs { u.nrs with waiting := some r }).setPlu { u.plu with suspended := some op }) := by
  obtain ⟨-, h2, h3, -⟩ := waits_eq_iff.1 h
  exact ⟨⟨rfl, fun _ => rfl⟩, h2, h3⟩

end Suspends

theorem placeRecord_suspends {s : State} (hs : s.Agrees) (c : Nat) : Suspends s (s.placeRecord c) := by
  unfold placeRecord
  split
  · exact .of_waits rfl hs
  · rename_i r _
    dsimp only
    split <;> rename_i heq
    · exact .of_waits ((waits_of_sendRequests heq).trans rfl) hs
    · obtain ⟨u, r, hu, rfl⟩ := waiting_of_sendRequests heq
      exact .suspended (hu.trans rfl) r _

/-- Placements made in turn: what is held stands, and nothing is owed where none waits. -/
theorem placeAll_agrees (cs : List Nat) {s : State} (hs : s.Agrees) (hnone : s.plu.suspended = none) :
    (placeAll cs s).Agrees ∧ (placeAll cs s).plu.heldEvents = s.plu.heldEvents ∧
      ((placeAll cs s).plu.suspended = none → (placeAll cs s).plu.owed = []) := by
  induction cs generalizing s with
  | nil => exact ⟨hs, rfl, fun _ => rfl⟩
  | cons c cs ih =>
    obtain ⟨h1, -, h3⟩ := placeRecord_suspends (s := s.setPlu { s.plu with owed := cs }) hs c
    unfold placeAll
    dsimp only
    split
    · rename_i hsuspended
      refine ⟨h1, h3, fun hclear => ?_⟩
      simp [isSuspended, hclear] at hsuspended
    · rename_i hclear
      obtain ⟨g1, g2, g3⟩ := ih h1 (by simpa [isSuspended] using hclear)
      exact ⟨g1, g2.trans h3, g3⟩

theorem reversalFourth_waits (s : State) (contacts : List Nat) : (s.reversalFourth contacts).waits = s.waits := by
  unfold reversalFourth sendBow
  dsimp only
  split <;> split
  · rfl
  · split <;> rfl
  · rfl
  · split <;> rfl

theorem reversalThird_suspends (contacts : List Nat) (later : List (Nat × List NoteRequest)) {s : State}
    (hs : s.Agrees) : Suspends s (reversalThird contacts later s) := by
  induction later generalizing s with
  | nil => exact .of_waits (reversalFourth_waits s contacts) hs
  | cons p later ih =>
    obtain ⟨c, rs⟩ := p
    unfold reversalThird
    split <;> rename_i heq
    · have hwaits := waits_of_sendRequests heq
      exact (Suspends.of_waits hwaits hs).trans (ih (hs.of_waits hwaits))
    · obtain ⟨u, r, hu, rfl⟩ := waiting_of_sendRequests heq
      exact .suspended hu r _

theorem reversal_suspends {s : State} (hs : s.Agrees) : Suspends s s.reversal := by
  have hmatched : ∀ (l : List Matched) (u : State), (l.foldl releaseUnmatched u).waits = u.waits :=
    waits_foldl fun u m => (waits_foldl (fun v tag => releaseHolder_waits v _ tag) m.released _).trans rfl
  have hfirst := (hmatched ((s.reversedRecords.map s.reversalLookup).map
    (Reversed.matched (s.reversalFirst (s.reversedRecords.map s.reversalLookup)).nrs)) (s.reversalFirst
      (s.reversedRecords.map s.reversalLookup))).trans (show _ = s.waits from rfl)
  exact (Suspends.of_waits hfirst hs).trans (reversalThird_suspends _ _ (hs.of_waits hfirst))

theorem takeEvent_suspends {s : State} (hs : s.Agrees) (e : PlacementEvent) : Suspends s (s.takeEvent e) := by
  cases e with
  | press c n kind shiftHeld =>
    show Suspends s (s.takePress c n kind shiftHeld)
    unfold takePress
    split
    · exact .of_waits rfl hs
    · split
      · exact .of_waits rfl hs
      · dsimp only
        split
        · split
          · exact .of_waits rfl hs
          · exact placeRecord_suspends (s := s.appendRecord c n (pairOf kind shiftHeld) .placed) hs c
        · exact .of_waits rfl hs
  | release c => exact .of_waits (takeRelease_waits s c) hs
  | turn => exact reversal_suspends hs
  | fall => exact .of_waits (takeFall_waits s) hs
  | breathExpiry => exact .of_waits (fade_waits s) hs

/-- Held events taken in turn: nothing is held where none suspends the unit again. -/
theorem takeHeld_lawful (es : List PlacementEvent) {s : State} (hs : s.Agrees) (howed : s.plu.owed = []) :
    (takeHeld es s).SuspensionLawful := by
  induction es generalizing s with
  | nil => exact suspensionLawful_iff.2 ⟨hs, fun _ => ⟨howed, rfl⟩⟩
  | cons e es ih =>
    obtain ⟨h1, h2, -⟩ := takeEvent_suspends (s := s.setPlu { s.plu with heldEvents := es }) hs e
    unfold takeHeld
    dsimp only
    split
    · rename_i hsuspended
      refine suspensionLawful_iff.2 ⟨h1, fun hclear => ?_⟩
      simp [isSuspended, hclear] at hsuspended
    · exact ih h1 (h2.trans howed)

theorem afterOperation_lawful {s : State} (hs : s.Agrees) : s.afterOperation.SuspensionLawful := by
  unfold afterOperation
  split
  · rename_i hsuspended
    refine suspensionLawful_iff.2 ⟨hs, fun hclear => ?_⟩
    simp [isSuspended, hclear] at hsuspended
  · rename_i hclear
    obtain ⟨h1, -, h3⟩ := placeAll_agrees s.plu.owed hs (by simpa [isSuspended] using hclear)
    dsimp only
    split
    · rename_i hsuspended
      refine suspensionLawful_iff.2 ⟨h1, fun hclear => ?_⟩
      simp [isSuspended, hclear] at hsuspended
    · rename_i hstill
      exact takeHeld_lawful _ h1 (h3 (by simpa [isSuspended] using hstill))

theorem continueOperation_agrees {s : State} (hs : s.Agrees) (op : Operation) : (s.continueOperation op).Agrees := by
  unfold continueOperation
  split <;> rename_i heq
  · obtain ⟨u, r, hu, rfl⟩ := waiting_of_sendRequests heq
    exact (Suspends.suspended hu r _).1
  · have hwaits := waits_of_sendRequests heq
    split
    · exact hs.of_waits hwaits
    · exact (reversalThird_suspends _ _ (hs.of_waits hwaits)).1

/-- A suspended operation goes on where its request waits no more. -/
theorem answered_lawful {s : State} (hwaiting : s.nrs.waiting = none) (howed : s.nrs.answerOwed = false) (op : Operation)
    (tag : Option Nat) : (s.answered op tag).SuspensionLawful := by
  have hclear : (s.setPlu { s.plu with suspended := none }).Agrees :=
    ⟨by simp [hwaiting], by simp [howed]⟩
  unfold answered
  cases tag with
  | none => exact afterOperation_lawful (continueOperation_agrees hclear op)
  | some t => exact afterOperation_lawful (continueOperation_agrees (s :=
      (s.setPlu { s.plu with suspended := none }).appendTag op.record t) hclear op)

end State

namespace State.SuspensionLawful

variable {s : State}

theorem placementEvent (hs : s.SuspensionLawful) (e : PlacementEvent) : (s.placementEvent e).SuspensionLawful := by
  obtain ⟨hagrees, hbehind⟩ := suspensionLawful_iff.1 hs
  unfold State.placementEvent
  split
  · split
    · rename_i hsuspended
      refine suspensionLawful_iff.2 ⟨hagrees, fun hclear => ?_⟩
      have hnone : s.plu.suspended = none := hclear
      simp [isSuspended, hnone] at hsuspended
    · rename_i hclear
      obtain ⟨h1, h2, h3⟩ := takeEvent_suspends hagrees e
      obtain ⟨howed, hheld⟩ := hbehind (by simpa [isSuspended] using hclear)
      exact suspensionLawful_iff.2 ⟨h1, fun _ => ⟨h2.trans howed, h3.trans hheld⟩⟩
  · exact hs

theorem levelRise (hs : s.SuspensionLawful) : s.levelRise.SuspensionLawful := by
  obtain ⟨hagrees, hbehind⟩ := suspensionLawful_iff.1 hs
  have hcalm : ∀ u : State, u.Agrees → u.plu.suspended = s.plu.suspended → u.plu.owed = s.plu.owed →
      u.plu.heldEvents = s.plu.heldEvents.filter (· != .breathExpiry) → u.SuspensionLawful := by
    intro u hu h1 h2 h3
    refine suspensionLawful_iff.2 ⟨hu, fun hclear => ?_⟩
    obtain ⟨howed, hheld⟩ := hbehind (h1.symm.trans hclear)
    exact ⟨h2.trans howed, by rw [h3, hheld]; rfl⟩
  unfold State.levelRise
  dsimp only
  split
  · split
    · rename_i hsuspended
      refine suspensionLawful_iff.2 ⟨hagrees, fun hclear => ?_⟩
      have hnone : s.plu.suspended = none := hclear
      simp [isSuspended, hnone] at hsuspended
    · rename_i hclear
      have hnone : s.plu.suspended = none := by simpa [isSuspended] using hclear
      obtain ⟨-, hheld⟩ := hbehind hnone
      set u : State := (s.setPlu { s.plu with
        breathTimer := none
        heldEvents := s.plu.heldEvents.filter (· != .breathExpiry) }).setPlu _ with hu
      obtain ⟨h1, h2, h3⟩ := placeAll_agrees (s.plu.owed ++ (s.plu.held.filter (·.state == .armed)).map (·.contact))
        (s := u) hagrees hnone
      refine suspensionLawful_iff.2 ⟨h1, fun hstill => ⟨h3 hstill, h2.trans ?_⟩⟩
      simp [hu, hheld]
  · exact hcalm _ hagrees rfl rfl rfl

theorem groupChange (hs : s.SuspensionLawful) (turned rose fell : Bool) :
    (s.groupChange turned rose fell).SuspensionLawful := by
  unfold State.groupChange
  split
  · have hrise : (if rose then s.levelRise else s).SuspensionLawful := by
      split
      · exact hs.levelRise
      · exact hs
    have hturn : ∀ t : State, t.SuspensionLawful → (if turned then t.placementEvent .turn else t).SuspensionLawful := by
      intro t ht
      split
      · exact ht.placementEvent _
      · exact ht
    dsimp only
    split
    · exact (hturn _ hrise).placementEvent _
    · exact hturn _ hrise
  · exact hs

theorem panic (hs : s.SuspensionLawful) : s.panic.SuspensionLawful := by
  obtain ⟨⟨h1, -⟩, hbehind⟩ := suspensionLawful_iff.1 hs
  unfold State.panic
  split
  · unfold rosterPanic
    set u : State := s.setPlu _ with hu
    have hwaits : (u.nrs.roster.foldl (fun t (e : RosterEntry) => t.endEntry e.tag .panic) u).waits = u.waits :=
      waits_foldl (fun t (e : RosterEntry) => endEntry_waits t e.tag .panic) _ u
    obtain ⟨g1, g2, g3, g4, -⟩ := waits_eq_iff.1 hwaits
    refine ⟨?_, fun hclear => ⟨g2, g3.trans ?_⟩, id⟩
    · simp only [setNrs_plu, setNrs_nrs, g1, g4]
      exact h1
    · have hnone : s.plu.suspended = none := g1.symm.trans hclear
      simp [hu, (hbehind hnone).2]
  · exact hs

/-- The waiting request is handled again, or answered as a panic owed it. -/
theorem retryWaiting (hs : s.SuspensionLawful) : s.retryWaiting.SuspensionLawful := by
  obtain ⟨⟨h1, h3⟩, -⟩ := suspensionLawful_iff.1 hs
  unfold State.retryWaiting
  cases hw : s.nrs.waiting with
  | none => exact hs
  | some r =>
    obtain ⟨op, hop⟩ : ∃ op, s.plu.suspended = some op := by
      rw [hw] at h1
      exact Option.isSome_iff_exists.1 h1
    set s1 := s.setNrs { s.nrs with waiting := none, answerOwed := false } with hs1
    dsimp only
    split
    · exact afterOperation_lawful ⟨rfl, fun h => Bool.noConfusion h⟩
    · have h := answerRequest_waits s1 r
      have hop1 : s1.plu.suspended = some op := hop
      rw [hop1]
      revert h
      obtain ⟨a, s2⟩ := s1.answerRequest r
      intro h
      have hanswered : a ≠ .waits → s2.nrs.waiting = none ∧ s2.nrs.answerOwed = false := by
        intro ha
        obtain ⟨-, -, -, h4, h5⟩ := waits_eq_iff.1 (h.resolve_left fun h => ha h.1).2
        exact ⟨h4, h5⟩
      cases a with
      | tag t =>
        obtain ⟨h4, h5⟩ := hanswered Answer.noConfusion
        exact answered_lawful h4 h5 op (some t)
      | unplaced =>
        obtain ⟨h4, h5⟩ := hanswered Answer.noConfusion
        exact answered_lawful h4 h5 op none
      | waits =>
        have h2 : s2 = s1.setNrs { s1.nrs with waiting := some r } := (h.resolve_right fun h => h.1 rfl).2
        subst h2
        refine suspensionLawful_iff.2 ⟨⟨by simp [hop1], fun _ => rfl⟩, fun hclear => ?_⟩
        exact absurd (hop1.symm.trans hclear) (Option.some_ne_none op)

end State.SuspensionLawful

end Sys2Proof.Machine
end

section
/-! PROOFS. The moves a step is made of: every command runs through a few kinds of change of one block or two, each with
the guard under which the model makes it, and through moves of the note path. -/

namespace Sys2Proof.Machine

/-! ## The head of the note queue at the end of its attempt -/

/-- The head's frame has gone out: what its entry does at once, a request that waited for it being taken up again. -/
def State.frameOut (s : State) : NoteFrame → State
  | .start tag _ _ _ _ => s.startGoneOut tag
  | .refreshStart tag _ _ _ => s.startGoneOut tag
  | .stop tag _ => (s.freeEntry tag).taken
  | .bow _ _ => s.payOwedBow

/-- The head's frame has not gone out: what its entry does at once, a request that waited for it being taken up again. -/
def State.frameBack (s : State) : NoteFrame → State
  | .stop _ _ => s.taken
  | f => s.noteNotGoneOut f

theorem NoteMoves.noteGoneOut (s : State) (f : NoteFrame) : NoteMoves (s.frameOut f) (s.noteGoneOut f) := by
  cases f with
  | stop tag a => exact retryWaiting (s.freeEntry tag)
  | start | refreshStart | bow => exact refl _

theorem NoteMoves.noteNotGoneOut (s : State) (f : NoteFrame) : NoteMoves (s.frameBack f) (s.noteNotGoneOut f) := by
  cases f with
  | stop tag a => exact retryWaiting s
  | start | refreshStart | bow => exact refl _

/-- The transmitter FREE again after an attempt with result `r`. -/
def State.freed (s : State) (r : AttemptResult) : State :=
  s.setLkc { s.lkc with tx := none, driven := if r = .success then s.lkc.driven else [] }

/-- The head of the queue at the end of its attempt, before a request that waited for it is handled again. -/
def State.headEnded (s : State) (a : Attempt) (r : AttemptResult) (q : QueueItem) (rest : List QueueItem) : State :=
  match outcomeOf a.failures r with
  | .unsuccessful =>
    if a.withdraw then (s.mapQueue fun _ => rest).frameBack q.frame
    else (s.mapQueue fun _ => ⟨q.frame, failuresAfter a.failures r⟩ :: rest).frameBack q.frame
  | o => ((s.mapQueue fun _ => rest).recordDrop o).frameOut q.frame

theorem NoteMoves.endQueueAttempt {s : State} {q : QueueItem} {rest : List QueueItem} (h : s.lkc.noteQueue = q :: rest)
    (a : Attempt) (r : AttemptResult) : NoteMoves (s.headEnded a r q rest) (s.endQueueAttempt a r) := by
  unfold State.endQueueAttempt State.headEnded
  rw [h]
  cases outcomeOf a.failures r with
  | unsuccessful =>
    dsimp only
    split
    · exact noteNotGoneOut _ _
    · exact noteNotGoneOut _ _
  | transmitted => exact noteGoneOut _ _
  | dropped => exact noteGoneOut _ _

/-- Where no request waits the end of the head's attempt is all. -/
theorem State.endQueueAttempt_of_none {s : State} {q : QueueItem} {rest : List QueueItem}
    (h : s.lkc.noteQueue = q :: rest) (hnone : s.nrs.waiting = none) (a : Attempt) (r : AttemptResult) :
    s.endQueueAttempt a r = s.headEnded a r q rest := by
  have hretry : ∀ t : State, t.nrs.waiting = none → t.retryWaiting = t.taken := by
    intro t ht
    rw [State.taken_of_none ht]
    simp [State.retryWaiting, ht]
  have hout : ∀ (t : State) f, t.nrs.waiting = none → t.noteGoneOut f = t.frameOut f := by
    intro t f ht
    cases f with
    | stop tag a => exact hretry (t.freeEntry tag) ht
    | start | refreshStart | bow => rfl
  have hback : ∀ (t : State) f, t.nrs.waiting = none → t.noteNotGoneOut f = t.frameBack f := by
    intro t f ht
    cases f with
    | stop tag a => exact hretry t ht
    | start | refreshStart | bow => rfl
  have hdrop : ∀ o, (((s.mapQueue fun _ => rest).recordDrop o).nrs.waiting = none) := by
    intro o
    unfold State.recordDrop
    split <;> exact hnone
  unfold State.endQueueAttempt State.headEnded
  rw [h]
  cases outcomeOf a.failures r with
  | unsuccessful =>
    dsimp only
    split
    · exact hback _ _ hnone
    · exact hback _ _ hnone
  | transmitted => exact hout _ _ (hdrop _)
  | dropped => exact hout _ _ (hdrop _)

/-- The end of an attempt of a note frame keeps the suspension lawful. -/
theorem State.SuspensionLawful.endQueueAttempt {s : State} (hs : s.SuspensionLawful) (a : Attempt) (r : AttemptResult) :
    (s.endQueueAttempt a r).SuspensionLawful := by
  have hbow : ∀ t : State, t.SuspensionLawful → t.payOwedBow.SuspensionLawful := by
    intro t ht
    unfold State.payOwedBow
    split <;> exact ht
  have hstop : ∀ (t : State) tag a, t.SuspensionLawful → (t.queueStop tag a).SuspensionLawful := fun t tag a ht =>
    ht.of_waits (t.queueStop_waits tag a)
  have hout : ∀ (t : State) f, t.SuspensionLawful → (t.noteGoneOut f).SuspensionLawful := by
    intro t f ht
    have hstart : ∀ tag, (t.startGoneOut tag).SuspensionLawful := by
      intro tag
      unfold State.startGoneOut
      split
      · exact ht
      · split
        · exact ht
        · exact hstop t tag _ ht
    cases f with
    | start tag | refreshStart tag => exact hstart tag
    | stop tag => exact State.SuspensionLawful.retryWaiting (s := t.freeEntry tag) ht
    | bow => exact hbow t ht
  have hback : ∀ (t : State) f, t.SuspensionLawful → (t.noteNotGoneOut f).SuspensionLawful := by
    intro t f ht
    unfold State.noteNotGoneOut
    split
    · split
      · exact ht
      · split <;> exact ht
    · split
      · exact ht
      · split
        · exact ht
        · exact hstop (t.withdrawTag _) _ _ ht
    · exact ht.retryWaiting
    · split
      · exact hbow t.withdrawBow ht
      · exact ht
  unfold State.endQueueAttempt
  split
  · exact hs
  · split
    · split <;> exact hback _ _ hs
    · refine hout _ _ ?_
      unfold State.recordDrop
      split <;> exact hs

/-- What a count does to the unit's settings, sensor state and level while zeroing. -/
theorem BellowsUnit.capture_keeps (b : BellowsUnit) (count : Int) :
    (b.capture count).settings = b.settings ∧ (b.capture count).sensorLost = b.sensorLost ∧
      ((b.capture count).level = b.level ∨ (b.capture count).level = 0) := by
  unfold BellowsUnit.capture
  dsimp only
  split
  · exact ⟨rfl, rfl, .inl rfl⟩
  · split
    · exact ⟨rfl, rfl, .inr rfl⟩
    · split
      · exact ⟨rfl, rfl, .inl rfl⟩
      · exact ⟨rfl, rfl, .inr rfl⟩

/-- The state in which an answer to the outstanding conversion has been noted: no sample is missed and the sensor is
ACTIVE (R36, R38). -/
def State.sampled (s : State) : State :=
  let s1 := s.setBlw { s.blw with outstanding := false, missed := 0, sensorLost := false }
  if s.blw.sensorLost then s1.setSensorLost false else s1

@[simp] theorem State.sampled_blw (s : State) :
    s.sampled.blw = { s.blw with outstanding := false, missed := 0, sensorLost := false } := by
  unfold State.sampled
  dsimp only
  split <;> rfl

theorem State.sampled_phase (s : State) : s.sampled.blw.phase = s.blw.phase := by rw [State.sampled_blw]

theorem State.takeSample_eq (s : State) (count : Int) : s.takeSample count =
    match s.blw.phase with
    | .off => s
    | .zeroing =>
      if (s.sampled.blw.capture count).phase = .measuring then
        ((s.sampled.setBlw (s.sampled.blw.capture count)).handBellows).writeBellowsAfter s.blw
      else s.sampled.setBlw (s.sampled.blw.capture count)
    | .measuring => ((s.sampled.setBlw (s.sampled.blw.chain count)).handBellows).writeBellowsAfter s.blw := by
  unfold State.takeSample State.sampled
  cases s.blw.phase <;> rfl

/-! ## The moves -/

/-- The unit `b` may follow the unit of `s`: the settings stand, a unit that is OFF stays so, and the level is the old one,
0, or one read from the curve. -/
def State.UnitFollows (s : State) (b : BellowsUnit) : Prop :=
  b.settings = s.blw.settings ∧ (s.blw.phase = .off → b.phase = .off) ∧
    (b.level = s.blw.level ∨ b.level = 0 ∨ ∃ e, b.level = levelOf s.blw.settings e)

/-- A new direction and level with the section levels that follow, before the Placement Unit hears of it. -/
def State.regrouped (s : State) (d : Direction) (level : Nat) : State :=
  let s1 := s.setGrf { s.grf with direction := d, level := level }
  if s.grf.level != level then s1.recomputeLevels else s1

/-- A move of the note path leaves the blocks no note passes through. -/
theorem NoteMove.notesOnly {s t : State} (h : NoteMove s t) : State.NotesOnly s t := by
  cases h with
  | unplaced | misses | overflow | plu | append | drop | release | turnMark | withdrawBow | bow | answerOwed | settle =>
    rfl
  | ending tag a => exact .endEntry s tag a
  | request r => exact .answerRequest s r
  | refresh => exact .refresh s
  | restart => exact .restartLevels s

theorem NoteMoves.notesOnly {s t : State} (h : NoteMoves s t) : State.NotesOnly s t := by
  induction h with
  | refl => exact .refl s
  | tail _ hmove ih => exact ih.trans hmove.notesOnly

/-- One move of a step. A run of moves of the note path is one: it keeps the suspension lawful as a whole, and none is
made in LOADING. -/
inductive Move : State → State → Prop
  | notes {s t : State} (hstation : s.stc.station ≠ .loading) (h : NoteMoves s t)
    (hsuspension : s.SuspensionLawful → t.SuspensionLawful) : Move s t
  | pending (s : State) (l : List Instr) : Move s { s with pending := l }
  | elapse (s : State) : Move s s.elapse
  | resetPin (s : State) : Move s s.resetPin
  | risingEdge (s : State) (h : s.resetLow = true) : Move s s.risingEdge
  | fault (s : State) (reason : FaultReason) : Move s (s.enterFault reason)
  | loading (s : State) : Move s s.startLoading
  | port (s : State) (p : MemoryPort) : Move s (s.setStl { s.stl with port := p })
  | record (s : State) (img : List Byte) (h : s.stc.station = .loading) :
    Move s ((s.writeRecord img).finishLoading img)
  | join (s : State) (h : s.stc.station = .loading) (hengine : s.ofu.engine = .unheard) : Move s s.startJoining
  | rate (s : State) (r : Option LinkRate) (listening : Bool) (t : Timer) :
    Move s (s.setLkc { s.lkc with linkRate := r, listening := listening, listenTimer := t })
  | timers (s : State) (join drain : Timer) : Move s (s.setStc { s.stc with joinTimer := join, drainTimer := drain })
  | station (s : State) (st : StationState) (h : s.working = true) (hst : st = .run ∨ st = .reloading) :
    Move s (s.setStc { s.stc with station := st })
  | scanner (s : State) (x : MatrixScanner) : Move s (s.setMsc x)
  | unit (s : State) (b : BellowsUnit) (h : s.UnitFollows b) (hlost : b.sensorLost = s.blw.sensorLost) :
    Move s (s.setBlw b)
  | sensor (s : State) (b : BellowsUnit) (h : s.UnitFollows b) (hphase : s.blw.phase ≠ .off) :
    Move s ((s.setBlw b).setSensorLost b.sensorLost)
  | presenceTimer (s : State) (t : Timer) : Move s (s.setPtb { s.ptb with presenceTimer := t })
  | write (s : State) (key : TableKey) (f : OutFrame) (h : f.fits key = true) : Move s (s.writeEntry key f)
  | group (s : State) (d : Direction) (level : Nat) (h : level ≤ 127 ∨ level = s.blw.level) :
    Move s (s.regrouped d level)
  | registration (s : State) (n : Nat) : Move s (s.adoptRegistration n)
  | stale (s : State) (h : s.grf.freshness = .fresh) :
    Move s (s.setGrf { s.grf with freshness := .stale, staleTimer := none })
  | sourceLost (s : State) (hw : s.working = true) (h : s.grf.sourceMode = .follow ∨ s.grf.freshness ≠ .lost) :
    Move s ((s.setGrf { s.grf with freshness := .lost, staleTimer := none, lostTimer := none }).setBellowsLost true)
  | sourceFresh (s : State) (hw : s.working = true) (h : s.grf.sourceMode = .follow) :
    Move s ((s.setGrf { s.grf with
      freshness := .fresh
      staleTimer := some (ms 60)
      lostTimer := some (ms 500) }).setBellowsLost false)
  | source (s : State) (x : Option Nat) : Move s (s.setGrf { s.grf with source := x })
  | engineLive (s : State) : Move s s.engineEvidence
  | engineAbsent (s : State) (hw : s.working = true) :
    Move s ((s.setOfu { s.ofu with engine := .absent, livenessTimer := none }).setEngineAbsent true)
  | dropEnds (s : State) : Move s ((s.setLkc { s.lkc with linkDropTimer := none }).setLinkDrop false)
  | offers (s : State) (x : OfferUnit) (hlimit : x.limit = s.ofu.limit) (hengine : x.engine = s.ofu.engine) :
    Move s (s.setOfu x)
  | limits (s : State) : Move s s.recomputeAndTrim
  | peer (s : State) (a : Nat) (p : PeerRecord) (hw : s.working = true) (hp : p.live = p.expiry.running)
    (habsent : p.live = false → p.declared = none) (ha : p.live = true → s.isPeerAddress a = true)
    (hgroup : ∀ d, p.declared = some d → (1 ≤ d.group ∧ d.group ≤ 4) ∨ (s.ptb.peer a).declared = some d) :
    Move s (s.setPeer a p)
  | exhaustion (s : State) : Move s s.countExhaustion
  | receiveError (s : State) : Move s s.countReceiveError
  | receive (s : State) (f : RxFrame) (h : s.lkc.rxBuffer.length < 4) :
    Move s (s.setLkc { s.lkc with rxBuffer := s.lkc.rxBuffer ++ [f] })
  | deliver (s : State) (f : RxFrame) (rest : List RxFrame) (h : s.lkc.rxBuffer = f :: rest) :
    Move s (s.setLkc { s.lkc with rxBuffer := rest })
  | ownTaken (s : State) (h : s.lkc.tx = none) : Move s (s.setLkc { s.lkc with driven := [] })
  | idle (s : State) : Move s s.idle
  | endsUnreported (s : State) (a : Attempt) (r : AttemptResult) (htx : s.lkc.tx = some a)
    (h : a.source = .carried ∨ (a.source = .queueHead ∧ s.lkc.noteQueue = [])) : Move s (s.freed r)
  | tableEnds (s : State) (a : Attempt) (key : TableKey) (r : AttemptResult) (htx : s.lkc.tx = some a)
    (h : a.source = .table key) : Move s ((s.freed r).endTableAttempt key a r)
  | headEnds {s t : State} (a : Attempt) (q : QueueItem) (rest : List QueueItem) (r : AttemptResult)
    (htx : s.lkc.tx = some a) (h : a.source = .queueHead) (hq : s.lkc.noteQueue = q :: rest)
    (hnotes : NoteMoves ((s.freed r).headEnded a r q rest) t)
    (hnone : s.nrs.waiting = none → t = (s.freed r).headEnded a r q rest)
    (hsuspension : s.SuspensionLawful → t.SuspensionLawful) : Move s t

/-- A run of moves. -/
def Moves : State → State → Prop := Relation.ReflTransGen Move

namespace Moves

theorem refl (s : State) : Moves s s := Relation.ReflTransGen.refl

theorem one {s t : State} (h : Move s t) : Moves s t := Relation.ReflTransGen.single h

theorem trans {s t u : State} (h : Moves s t) (g : Moves t u) : Moves s u := Relation.ReflTransGen.trans h g

theorem of_eq {s t : State} (h : t = s) : Moves s t := h ▸ refl s

/-- A run of moves of the note path out of LOADING. -/
theorem notes {s t : State} (hstation : s.stc.station ≠ .loading) (h : NoteMoves s t)
    (hsuspension : s.SuspensionLawful → t.SuspensionLawful) : Moves s t := one (.notes hstation h hsuspension)

/-- A run of moves of the note path made only while the Placement Unit takes events. -/
theorem notesInPlay {s t : State} (h : NoteMoves s t) (hsuspension : s.SuspensionLawful → t.SuspensionLawful)
    (hidle : s.playing = false → t = s) : Moves s t := by
  cases hplaying : s.playing with
  | false => exact of_eq (hidle hplaying)
  | true =>
    refine notes (fun hloading => ?_) h hsuspension
    simp [State.playing, hloading] at hplaying

theorem placementEvent (s : State) (e : PlacementEvent) : Moves s (s.placementEvent e) :=
  notesInPlay (NoteMoves.placementEvent s e) (·.placementEvent e) fun h => if_neg (by simp [h])

theorem groupChange (s : State) (turned rose fell : Bool) : Moves s (s.groupChange turned rose fell) :=
  notesInPlay (NoteMoves.groupChange s turned rose fell) (·.groupChange turned rose fell) fun h => if_neg (by simp [h])

theorem panic (s : State) : Moves s s.panic :=
  notesInPlay (NoteMoves.panic s) (·.panic) fun h => if_neg (by simp [h])

/-- A law kept by every move is kept by every run of moves. -/
theorem keeps {P : State → Prop} (hP : ∀ s t, Move s t → P s → P t) {s t : State} (h : Moves s t) (hs : P s) : P t := by
  induction h with
  | refl => exact hs
  | tail _ hmove ih => exact hP _ _ hmove ih

theorem foldl {α : Type} {f : State → α → State} (hf : ∀ s a, Moves s (f s a)) (l : List α) (s : State) :
    Moves s (l.foldl f s) := by
  induction l generalizing s with
  | nil => exact refl s
  | cons a l ih => exact (hf s a).trans (ih _)

/-! ## Start-up -/

theorem writePresence (s : State) : Moves s s.writePresence :=
  (one (.write s .presence _ rfl)).trans (one (.presenceTimer _ _))

theorem settleRate (s : State) (r : LinkRate) : Moves s (s.settleRate r) :=
  ((one (.rate s _ _ _)).trans (writePresence _)).trans (one (.timers _ _ _))

theorem enterJoining (s : State) (code : Option LinkRate) (h : s.stc.station = .loading)
    (hengine : s.ofu.engine = .unheard) : Moves s (s.enterJoining code) := by
  unfold State.enterJoining
  dsimp only
  split
  · exact (one (.join s h hengine)).trans (settleRate _ _)
  · exact (one (.join s h hengine)).trans (settleRate _ _)
  · exact (one (.join s h hengine)).trans (one (.rate _ _ _ _))

/-- The start record's values come while the station is in LOADING, and leave it there. -/
theorem finishLoading_station (s : State) (img : List Byte) :
    ((s.writeRecord img).finishLoading img).stc.station = s.stc.station := by
  unfold State.finishLoading
  rw [(State.NotesOnly.recomputeLevels _).station_eq, State.recomputeLimits_ofu]
  simp only [State.setOfu_stc]
  rfl

/-- The engine is UNHEARD once the record has been read. -/
theorem finishLoading_engine (s : State) (img : List Byte) :
    ((s.writeRecord img).finishLoading img).ofu.engine = .unheard := by
  unfold State.finishLoading
  rw [(State.NotesOnly.recomputeLevels _).ofu_eq]
  rfl

theorem readRecord (s : State) (img : List Byte) (h : s.stc.station = .loading) : Moves s (s.readRecord img) := by
  unfold State.readRecord
  split
  · exact (one (.record s img h)).trans (enterJoining _ _ ((finishLoading_station s img).trans h)
      (finishLoading_engine s img))
  · exact one (.fault s _)

theorem headerRead (s : State) (b0 b1 b2 b3 : Byte) : Moves s (s.headerRead b0 b1 b2 b3) := by
  unfold State.headerRead State.readHeader
  split
  · split
    · exact one (.fault s _)
    · exact one (.port s _)
  · exact refl s

theorem recordRead (s : State) (rest : List Byte) : Moves s (s.recordRead rest) := by
  unfold State.recordRead
  split
  · rename_i h _
    exact readRecord s _ h
  · exact refl s

theorem listenExpiry (s : State) : Moves s s.listenExpiry := by
  unfold State.listenExpiry
  split
  · exact settleRate s _
  · exact refl s

/-! ## The bellows unit -/

theorem writeBellows (s : State) : Moves s s.writeBellows := by
  refine (one (.write s .bellows _ rfl)).trans (one (.unit _ _ ⟨rfl, id, .inl rfl⟩ rfl))

theorem writeBellowsAfter (s : State) (b : BellowsUnit) : Moves s (s.writeBellowsAfter b) := by
  unfold State.writeBellowsAfter
  split
  · exact writeBellows s
  · exact refl s

theorem setGroup (s : State) (d : Direction) (level : Nat) (h : level ≤ 127 ∨ level = s.blw.level) :
    Moves s (s.setGroup d level) := by
  have hgroup : Moves s (s.regrouped d level) := one (.group s d level h)
  unfold State.setGroup
  dsimp only
  split
  · exact hgroup.trans (groupChange _ _ _ _)
  · rename_i hsame
    simp only [Bool.or_eq_true, not_or, Bool.not_eq_true] at hsame
    rwa [State.regrouped, hsame.2] at hgroup

theorem handBellows (s : State) : Moves s s.handBellows := by
  rcases State.handBellows_cases s with ⟨-, h⟩ | ⟨-, h⟩ <;> rw [h]
  · exact setGroup s _ _ (.inr rfl)
  · exact refl s

theorem missSample (s : State) (hphase : s.blw.phase ≠ .off) : Moves s s.missSample := by
  have hcount : Moves s (s.setBlw { s.blw with missed := min (s.blw.missed + 1) 8, outstanding := false }) :=
    one (.unit s _ ⟨rfl, id, .inl rfl⟩ rfl)
  have hlose : ∀ u : State, u.blw.phase ≠ .off → Moves u ((u.setBlw u.blw.lose).setSensorLost true) := fun u hu =>
    one (.sensor u u.blw.lose ⟨rfl, id, .inr (.inl rfl)⟩ hu)
  unfold State.missSample
  dsimp only
  split
  · exact ((hcount.trans (hlose _ hphase)).trans (handBellows _)).trans (writeBellowsAfter _ _)
  · exact hcount

theorem sampleExpiry (s : State) : Moves s s.sampleExpiry := by
  unfold State.sampleExpiry
  split
  · rename_i h
    refine trans ?_ (one (.unit _ _ ⟨rfl, id, .inl rfl⟩ rfl))
    split
    · exact missSample s h.1
    · exact refl s
  · exact refl s

theorem sampled (s : State) (hphase : s.blw.phase ≠ .off) : Moves s s.sampled := by
  have hfollows : s.UnitFollows { s.blw with outstanding := false, missed := 0, sensorLost := false } :=
    ⟨rfl, id, .inl rfl⟩
  unfold State.sampled
  cases hlost : s.blw.sensorLost with
  | true => exact one (.sensor s _ hfollows hphase)
  | false => exact one (.unit s _ hfollows hlost.symm)

theorem takeSample (s : State) (count : Int) (hphase : s.blw.phase ≠ .off) : Moves s (s.takeSample count) := by
  have hsampled := sampled s hphase
  have hchain : Moves s.sampled (s.sampled.setBlw (s.sampled.blw.chain count)) :=
    one (.unit _ _ ⟨rfl, id, .inr (.inr ⟨_, rfl⟩)⟩ rfl)
  have hcapture : Moves s.sampled (s.sampled.setBlw (s.sampled.blw.capture count)) := by
    obtain ⟨hset, hlost, hlevel⟩ := s.sampled.blw.capture_keeps count
    exact one (.unit _ _ ⟨hset, fun h => absurd (s.sampled_phase.symm.trans h) hphase, hlevel.imp_right .inl⟩ hlost)
  rw [State.takeSample_eq]
  split
  · exact refl s
  · split
    · exact ((hsampled.trans hcapture).trans (handBellows _)).trans (writeBellowsAfter _ _)
    · exact hsampled.trans hcapture
  · exact ((hsampled.trans hchain).trans (handBellows _)).trans (writeBellowsAfter _ _)

theorem sensorAnswer (s : State) (count : BitVec 16) (late : Bool) : Moves s (s.sensorAnswer count late) := by
  unfold State.sensorAnswer
  split
  · rename_i h
    exact takeSample s _ h.1
  · exact refl s

theorem heartbeatExpiry (s : State) : Moves s s.heartbeatExpiry := by
  unfold State.heartbeatExpiry
  split
  · exact writeBellows s
  · exact refl s

/-! ## RUN and the scanner -/

theorem enterRun (s : State) (h : s.working = true) : Moves s s.enterRun := by
  have hrun : Moves s (s.setStc { s.stc with station := .run, joinTimer := none }) :=
    (one (.station s .run h (.inl rfl))).trans (one (.timers _ none s.stc.drainTimer))
  have hpresent := (hrun.trans (one (.scanner _ s.msc.start))).trans (writePresence _)
  unfold State.enterRun
  dsimp only
  split
  · exact hpresent.trans (writeBellows _)
  · exact hpresent

theorem joinExpiry (s : State) : Moves s s.joinExpiry := by
  unfold State.joinExpiry
  split
  · rename_i h
    exact enterRun s (State.working_iff.2 (.inl h.1))
  · exact refl s

theorem selectRegistration (s : State) (n : Nat) : Moves s (s.selectRegistration n) := by
  unfold State.selectRegistration
  split
  · dsimp only
    split
    · exact (one (.registration s n)).trans (one (.write _ .registration _ rfl))
    · exact one (.registration s n)
  · exact refl s

theorem deliverRelease (s : State) (i : Nat) : Moves s (s.deliverRelease i) := by
  unfold State.deliverRelease
  split
  · exact placementEvent s _
  · exact placementEvent s _
  · exact one (.scanner s _)
  · exact refl s
  · exact refl s

theorem deliverPress (s : State) (i : Nat) : Moves s (s.deliverPress i) := by
  unfold State.deliverPress
  dsimp only
  split
  · exact placementEvent s _
  · exact placementEvent s _
  · split
    · exact selectRegistration s _
    · exact refl s
  · exact one (.scanner s _)
  · exact refl s

theorem finishScan (s : State) (closed : List Nat) : Moves s (s.finishScan closed) :=
  ((one (.scanner s _)).trans (foldl deliverRelease _ _)).trans (foldl deliverPress _ _)

theorem scanExpiry (s : State) (scan : ScanPart) : Moves s (s.scanExpiry scan) := by
  rcases State.scanExpiry_cases s scan with h | ⟨closed, -, -, h⟩ | ⟨-, -, h⟩ | ⟨closed, -, -, h⟩ <;> rw [h]
  · exact refl s
  · exact (one (.scanner s _)).trans (finishScan _ closed)
  · exact one (.scanner s _)
  · exact finishScan s closed

/-! ## The other timers -/

theorem sourceLost (s : State) (hw : s.working = true) (h : s.grf.sourceMode = .follow ∨ s.grf.freshness ≠ .lost) :
    Moves s s.sourceLost :=
  (one (.sourceLost s hw h)).trans (setGroup _ _ 0 (.inl (by decide)))

theorem staleExpiry (s : State) : Moves s s.staleExpiry := by
  unfold State.staleExpiry
  split
  · rename_i h
    exact one (.stale s h.2.2)
  · exact refl s

theorem lostExpiry (s : State) : Moves s s.lostExpiry := by
  unfold State.lostExpiry
  split
  · rename_i h
    exact sourceLost s h.1 (.inr (by simp [h.2.2]))
  · exact refl s

theorem breathExpiry (s : State) : Moves s s.breathExpiry := by
  unfold State.breathExpiry
  split
  · rename_i h
    refine trans ?_ (placementEvent _ _)
    exact notesInPlay (NoteMoves.setPlu s (by rfl)) id fun hidle => absurd (h.1.symm.trans hidle) (by decide)
  · exact refl s

theorem staccatoExpiry (s : State) (tag : Nat) : Moves s (s.staccatoExpiry tag) := by
  unfold State.staccatoExpiry
  split
  · rename_i h
    split
    · exact refl s
    · split
      · exact notesInPlay (NoteMoves.endVictim s tag _) (·.of_waits (s.endVictim_waits tag _)) fun hidle =>
          absurd (h.symm.trans hidle) (by decide)
      · exact refl s
  · exact refl s

theorem presenceExpiry (s : State) : Moves s s.presenceExpiry := by
  unfold State.presenceExpiry
  split
  · exact writePresence s
  · exact refl s

theorem followReport (s : State) (hw : s.working = true) : Moves s s.followReport := by
  rcases State.followReport_cases s with ⟨-, h⟩ | ⟨hfollow, ⟨a, -, h⟩ | ⟨-, -, h⟩ | ⟨-, -, h⟩⟩ <;> rw [h]
  · exact refl s
  · exact one (.source s _)
  · exact one (.source s _)
  · exact (one (.source s none)).trans (sourceLost _ hw (.inl hfollow))

theorem peerReport (s : State) (hw : s.working = true) : Moves s s.peerReport :=
  (followReport s hw).trans (one (.limits _))

theorem peerExpiry (s : State) (a : Nat) : Moves s (s.peerExpiry a) := by
  unfold State.peerExpiry
  split
  · rename_i h
    exact (one (.peer s a .absent h.1 rfl (fun _ => rfl) (fun hlive => absurd hlive (by decide)) (by simp
      [PeerRecord.absent]))).trans (peerReport _ h.1)
  · exact refl s

theorem livenessExpiry (s : State) : Moves s s.livenessExpiry := by
  unfold State.livenessExpiry
  split
  · rename_i h
    exact one (.engineAbsent s h.1)
  · exact refl s

theorem linkDropExpiry (s : State) : Moves s s.linkDropExpiry := by
  unfold State.linkDropExpiry
  split
  · exact one (.dropEnds s)
  · exact refl s

theorem drainExpiry (s : State) : Moves s s.drainExpiry := by
  unfold State.drainExpiry
  split
  · exact one (.loading s)
  · exact refl s

/-! ## The line -/

theorem testDrain (s : State) : Moves s s.testDrain := by
  unfold State.testDrain
  split
  · exact one (.loading s)
  · exact refl s

theorem endAttempt (s : State) (r : AttemptResult) : Moves s (s.endAttempt r) := by
  rcases State.endAttempt_cases s r with ⟨-, h⟩ | ⟨a, htx, ⟨hsource, h⟩ | ⟨key, hsource, h⟩ | ⟨hsource, h⟩⟩ <;> rw [h]
  · exact refl s
  · exact one (.endsUnreported s a r htx (.inl hsource))
  · exact (one (.tableEnds s a key r htx hsource)).trans (testDrain _)
  · refine trans ?_ (testDrain _)
    cases hq : s.lkc.noteQueue with
    | nil =>
      have hfreed : (s.freed r).endQueueAttempt a r = s.freed r := by simp [State.endQueueAttempt, State.freed, hq]
      exact (one (.endsUnreported s a r htx (.inr ⟨hsource, hq⟩))).trans (of_eq hfreed)
    | cons q rest =>
      exact one (.headEnds a q rest r htx hsource hq (NoteMoves.endQueueAttempt (s := s.freed r) hq a r)
        (fun hnone => State.endQueueAttempt_of_none (s := s.freed r) hq hnone a r)
        fun hs => State.SuspensionLawful.endQueueAttempt (s := s.freed r) hs a r)

theorem attemptEnd (s : State) (read : List Bool) : Moves s (s.attemptEnd read) := by
  rcases State.attemptEnd_cases s read with ⟨-, h⟩ | ⟨r, -, h⟩ <;> rw [h]
  · exact refl s
  · exact endAttempt s r

theorem takeValid (s : State) (f : RxFrame) : Moves s (s.takeValid f) := by
  unfold State.takeValid
  split
  · unfold State.takeOwn
    split
    · exact refl s
    · rename_i h
      exact one (.ownTaken s (by simpa using h))
  · split
    · exact one (.fault s _)
    · split
      · exact refl s
      · split
        · exact one (.receiveError s)
        · exact one (.receive s f (by omega))

theorem receiveBits (s : State) (rate : LinkRate) (bits : List Bool) (afterIdle : Bool) :
    Moves s (s.receiveBits rate bits afterIdle) := by
  rcases State.receiveBits_cases s rate bits afterIdle with h | ⟨-, -, r, -, ⟨-, h⟩ | ⟨-, h⟩⟩ <;> rw [h]
  · exact refl s
  · exact one (.receiveError s)
  · refine trans ?_ (takeValid _ _)
    split
    · exact settleRate s rate
    · exact refl s

/-! ## Deliveries -/

/-- A declared group lies within 1..4 (R177). -/
theorem declaration_group {f : RxFrame} {d : Declaration} (h : f.declaration = some d) :
    1 ≤ d.group ∧ d.group ≤ 4 := by
  unfold RxFrame.declaration at h
  dsimp only at h
  split at h
  · rename_i hf
    cases h
    exact hf.2
  · cases h

theorem peerEvidence (s : State) (f : RxFrame) (hw : s.working = true) : Moves s (s.peerEvidence f) := by
  rcases State.peerEvidence_cases s f with ⟨-, h⟩ | ⟨hpeer, declared, hdeclared, h⟩
  · exact of_eq h
  · have hgroup : ∀ d, declared = some d → (1 ≤ d.group ∧ d.group ≤ 4) ∨ (s.ptb.peer f.sender).declared = some d := by
      rintro d rfl
      cases hf : f.declaration with
      | some d' =>
        rw [hf] at hdeclared
        exact .inl (declaration_group (hf.trans hdeclared.symm))
      | none =>
        rw [hf] at hdeclared
        dsimp only at hdeclared
        split at hdeclared
        · exact .inr hdeclared.symm
        · cases hdeclared
    have hset : Moves s (s.setPeer f.sender ⟨true, some (ms 350), declared⟩) :=
      one (.peer s _ ⟨true, some (ms 350), declared⟩ hw rfl (by simp) (fun _ => hpeer) hgroup)
    rcases h with h | h <;> rw [h]
    · exact hset
    · exact hset.trans (peerReport _ hw)

theorem takeBellows (s : State) (f : RxFrame) (hw : s.working = true) : Moves s (s.takeBellows f) := by
  unfold State.takeBellows
  split
  · rename_i h
    unfold State.acceptBellows
    split
    · exact sourceLost s hw (.inl h.1)
    · exact (one (.sourceFresh s hw h.1)).trans (setGroup _ _ _ (.inl (lowBits_seven_le _)))
  · exact refl s

theorem takeRegistration (s : State) (f : RxFrame) : Moves s (s.takeRegistration f) := by
  unfold State.takeRegistration
  split
  · exact one (.registration s _)
  · exact refl s

theorem takeOffer (s : State) (f : RxFrame) : Moves s (s.takeOffer f) := by
  have hstore : ∀ x, Moves s (s.setOfu { s.ofu with assembly := x }) := fun x => one (.offers s _ rfl rfl)
  have hadopt : ∀ (u : State) (offers : List Offer), Moves u (u.adoptOffers offers) := fun u offers =>
    (one (.offers u { u.ofu with table := tableOf offers, cap := .all none, assembly := none } rfl rfl)).trans
      (one (.limits _))
  unfold State.takeOffer
  split
  · dsimp only
    split
    · split
      · exact (hstore _).trans (hadopt _ _)
      · exact hstore _
    · exact hstore _
  · exact refl s

/-- A restart report taken while the station works. -/
theorem takeRestarted {s : State} (hw : s.working = true) : Moves s s.takeRestarted :=
  notes (fun hloading => by simp [State.working, hloading] at hw)
    ((NoteMoves.one (.refresh s)).trans (NoteMoves.one (.restart _)))
    (·.of_waits ((State.restartLevels_waits _).trans s.refresh_waits))

theorem takeExhausted (s : State) (mask : SlotMask) : Moves s (s.takeExhausted mask) :=
  ((one (.offers s { s.ofu with
    cap := .ofFn fun k => if SlotMask.has mask k then some (s.nrs.count k) else s.ofu.cap.get k } rfl rfl)).trans
      (one (.exhaustion _))).trans (one (.limits _))

theorem takeExhausted_working (s : State) (mask : SlotMask) : (s.takeExhausted mask).working = s.working :=
  (State.recomputeAndTrim_spec _).2.working_eq

theorem takeAlert (s : State) (f : RxFrame) (hw : s.working = true) : Moves s (s.takeAlert f) := by
  unfold State.takeAlert
  split
  · have h1 : Moves s (if f.alertFlag 0 then s.takeExhausted (f.byte 1) else s) := by
      split
      · exact takeExhausted s _
      · exact refl s
    have hw1 : (if f.alertFlag 0 then s.takeExhausted (f.byte 1) else s).working = true := by
      split
      · exact (takeExhausted_working s _).trans hw
      · exact hw
    have h2 : ∀ u : State, u.working = true → Moves u (if f.alertFlag 1 then u.takeRestarted else u) := by
      intro u hu
      split
      · exact takeRestarted hu
      · exact refl u
    dsimp only
    split
    · exact (h1.trans (h2 _ hw1)).trans (panic _)
    · exact h1.trans (h2 _ hw1)
  · exact refl s

theorem writeStatus (s : State) (r : Response) : Moves s (s.writeStatus r) := one (.write s .status _ rfl)

theorem enterReloading (s : State) (h : s.working = true) : Moves s s.enterReloading := by
  have hreloading : Moves s (s.setStc { s.stc with station := .reloading, joinTimer := none }) :=
    (one (.station s .reloading h (.inr rfl))).trans (one (.timers _ none s.stc.drainTimer))
  have hstopped : Moves s (((s.setStc { s.stc with station := .reloading, joinTimer := none }).setMsc
      s.msc.stop).setBlw s.blw.stop) :=
    (hreloading.trans (one (.scanner _ _))).trans (one (.unit _ _ ⟨rfl, fun _ => rfl, .inl rfl⟩ rfl))
  exact ((((hstopped.trans (panic _)).trans (writeStatus _ _)).trans (writePresence _)).trans
    (one (.timers _ _ _))).trans (testDrain _)

theorem takeQuery (s : State) (f : RxFrame) (h : s.working = true) : Moves s (s.takeQuery f) := by
  unfold State.takeQuery
  dsimp only
  split
  · split
    · exact writeStatus s _
    · exact (panic s).trans (writeStatus _ _)
    · split
      · exact writeStatus s _
      · exact enterReloading s h
    · exact writeStatus s _
  · exact refl s

end Moves

/-! ## The evidence of a frame leaves the station's state -/

theorem State.followReport_station (s : State) : s.followReport.stc.station = s.stc.station := by
  rcases State.followReport_cases s with ⟨-, h⟩ | ⟨-, ⟨a, -, h⟩ | ⟨-, -, h⟩ | ⟨-, -, h⟩⟩ <;> rw [h]
  · rfl
  · rfl
  · exact (State.sourceLost_notesOnly _).station_eq

theorem State.peerReport_station (s : State) : s.peerReport.stc.station = s.stc.station := by
  unfold State.peerReport
  rw [(State.recomputeAndTrim_spec _).2.station_eq]
  exact s.followReport_station

theorem State.peerEvidence_station (s : State) (f : RxFrame) : (s.peerEvidence f).stc.station = s.stc.station := by
  rcases State.peerEvidence_cases s f with ⟨-, h⟩ | ⟨-, declared, -, h | h⟩ <;> rw [h]
  · rfl
  · exact State.peerReport_station _

theorem State.working_of_station {s t : State} (h : t.stc.station = s.stc.station) : t.working = s.working := by
  simp only [State.working, h]

/-- What has been heard of a frame before the block it calls for takes it: its evidence (R153). -/
def State.heard (s : State) (f : RxFrame) : State :=
  if f.sender = 15 then (s.peerEvidence f).engineEvidence else s.peerEvidence f

theorem State.heard_station (s : State) (f : RxFrame) : (s.heard f).stc.station = s.stc.station := by
  unfold State.heard
  split
  · exact State.peerEvidence_station s f
  · exact State.peerEvidence_station s f

theorem State.handOn_eq (s : State) (f : RxFrame) : s.handOn f =
    if f.kind = kindBellows then (if f.fromStation then (s.heard f).takeBellows f else s.heard f)
    else if f.kind = kindRegistration then (if f.fromStation then (s.heard f).takeRegistration f else s.heard f)
    else if f.kind = kindOffer then (s.heard f).takeOffer f
    else if f.kind = kindAlert then (s.heard f).takeAlert f
    else if f.kind = kindQuery then (s.heard f).takeQuery f
    else s.heard f := rfl

namespace Moves

theorem heard (s : State) (f : RxFrame) (hw : s.working = true) : Moves s (s.heard f) := by
  unfold State.heard
  split
  · exact (peerEvidence s f hw).trans (one (.engineLive _))
  · exact peerEvidence s f hw

theorem handOn (s : State) (f : RxFrame) (hw : s.working = true) : Moves s (s.handOn f) := by
  have h := heard s f hw
  have hheard : (s.heard f).working = true := (State.working_of_station (s.heard_station f)).trans hw
  rw [State.handOn_eq]
  split
  · split
    · exact h.trans (takeBellows _ f hheard)
    · exact h
  · split
    · split
      · exact h.trans (takeRegistration _ f)
      · exact h
    · split
      · exact h.trans (takeOffer _ f)
      · split
        · exact h.trans (takeAlert _ f hheard)
        · split
          · exact h.trans (takeQuery _ f hheard)
          · exact h

theorem deliver (s : State) (p : RxFrame → Bool) : Moves s (s.deliver p) := by
  unfold State.deliver
  split
  · rename_i hw
    split
    · exact refl s
    · rename_i f rest hf
      split
      · exact (one (.deliver s f rest hf)).trans (handOn _ f hw)
      · exact refl s
  · exact refl s

end Moves

/-! ## Commands and steps -/

/-- What a command does while RESET is high; the two commands of RESET act in either case. -/
def meaning : Instr → State → State
  | .resetPinEvent => State.resetPin
  | .resetRisingEdge => State.risingEdge
  | .startRecordHeaderRead b0 b1 b2 b3 => fun s => s.headerRead b0 b1 b2 b3
  | .startRecordRead rest => fun s => s.recordRead rest
  | .listenTimerExpiry => State.listenExpiry
  | .joinTimerExpiry => State.joinExpiry
  | .scanTimerExpiry scan => fun s => s.scanExpiry scan
  | .sampleTimerExpiry => State.sampleExpiry
  | .sensorSample count late => fun s => s.sensorAnswer count late
  | .heartbeatTimerExpiry => State.heartbeatExpiry
  | .staleTimerExpiry => State.staleExpiry
  | .lostTimerExpiry => State.lostExpiry
  | .breathTimerExpiry => State.breathExpiry
  | .staccatoDeadlineExpiry tag => fun s => s.staccatoExpiry tag
  | .presenceTimerExpiry => State.presenceExpiry
  | .peerExpiry address => fun s => s.peerExpiry address
  | .engineLivenessTimerExpiry => State.livenessExpiry
  | .linkDropTimerExpiry => State.linkDropExpiry
  | .drainTimerExpiry => State.drainExpiry
  | .idleMoment => State.idle
  | .attemptEnd read => fun s => s.attemptEnd read
  | .frameReceived rate bits afterIdle => fun s => s.receiveBits rate bits afterIdle
  | c => fun s => s.deliver (delivers c)

/-- A command's meaning acts while RESET is high, and the two commands of RESET always. -/
theorem exec_eq (c : Instr) (s : State) : exec c s = .next
    (if c = .resetPinEvent ∨ c = .resetRisingEdge then meaning c s else s.whenUp (meaning c)) := by
  cases c <;> rfl

theorem exec_of_up {s : State} (h : s.resetLow = false) (c : Instr) : exec c s = .next (meaning c s) := by
  rw [exec_eq, State.whenUp_of_up h, ite_self]

theorem exec_of_low {s : State} (h : s.resetLow = true) {c : Instr} (hpin : c ≠ .resetPinEvent)
    (hedge : c ≠ .resetRisingEdge) : exec c s = .next s := by
  rw [exec_eq, if_neg (by simp [hpin, hedge]), State.whenUp_of_low h]

theorem Moves.meaning {s : State} (h : s.resetLow = false) (c : Instr) : Moves s (meaning c s) := by
  cases c with
  | resetPinEvent => exact one (.resetPin s)
  | resetRisingEdge => exact of_eq (if_neg (by simp [h]))
  | startRecordHeaderRead b0 b1 b2 b3 => exact headerRead s b0 b1 b2 b3
  | startRecordRead rest => exact recordRead s rest
  | listenTimerExpiry => exact listenExpiry s
  | joinTimerExpiry => exact joinExpiry s
  | scanTimerExpiry scan => exact scanExpiry s scan
  | sampleTimerExpiry => exact sampleExpiry s
  | sensorSample count late => exact sensorAnswer s count late
  | heartbeatTimerExpiry => exact heartbeatExpiry s
  | staleTimerExpiry => exact staleExpiry s
  | lostTimerExpiry => exact lostExpiry s
  | breathTimerExpiry => exact breathExpiry s
  | staccatoDeadlineExpiry tag => exact staccatoExpiry s tag
  | presenceTimerExpiry => exact presenceExpiry s
  | peerExpiry address => exact peerExpiry s address
  | engineLivenessTimerExpiry => exact livenessExpiry s
  | linkDropTimerExpiry => exact linkDropExpiry s
  | drainTimerExpiry => exact drainExpiry s
  | idleMoment => exact one (.idle s)
  | attemptEnd read => exact attemptEnd s read
  | frameReceived rate bits afterIdle => exact receiveBits s rate bits afterIdle
  | bellowsFrame | registrationFrame | presenceFrame | untakenFrame | engineOfferPart | engineAlertExhausted
  | engineAlertRestarted | engineAlertPanic | queryStatus | queryPanic | queryReload | queryOtherAction
  | engineAlertNoFlag => exact deliver s _

/-- All that a command can do. -/
theorem exec_cases {c : Instr} {s t : State} (h : exec c s = .next t) :
    (s.resetLow = false ∧ t = meaning c s) ∨
    (s.resetLow = true ∧ (t = s ∨ t = s.resetPin ∨ t = s.risingEdge)) := by
  cases hlow : s.resetLow with
  | false =>
    rw [exec_of_up hlow] at h
    cases h
    exact .inl ⟨rfl, rfl⟩
  | true =>
    right
    refine ⟨rfl, ?_⟩
    by_cases hpin : c = .resetPinEvent
    · subst hpin
      cases h
      exact .inr (.inl rfl)
    · by_cases hedge : c = .resetRisingEdge
      · subst hedge
        cases h
        exact .inr (.inr rfl)
      · rw [exec_of_low hlow hpin hedge] at h
        cases h
        exact .inl rfl

theorem Moves.exec {c : Instr} {s t : State} (h : Machine.exec c s = .next t) : Moves s t := by
  rcases exec_cases h with ⟨hup, rfl⟩ | ⟨hlow, rfl | rfl | rfl⟩
  · exact meaning hup c
  · exact refl _
  · exact one (.resetPin s)
  · exact one (.risingEdge s hlow)

/-- A step is a run of moves. -/
theorem Moves.step {s t : State} (h : Machine.step s = .next t) : Moves s t := by
  cases hp : s.pending with
  | nil =>
    rw [step_nil s hp] at h
    cases h
    exact one (.elapse s)
  | cons c rest =>
    rw [step_cons s c rest hp] at h
    exact (one (.pending s rest)).trans (Moves.exec h)

end Sys2Proof.Machine
end

section
/-! PROOFS. The bounds every step keeps: the status counters, the held-button list and the Link Controller's lists. The moves
of the note path are taken apart once more, into changes of one field, so that a law about one field needs one look at each. -/

namespace Sys2Proof.Machine

/-! ## The finest moves of the note path -/

/-- The counters that no operation of the note path counts in. -/
def Counters.linkCounters (c : Counters) : Nat × Nat × Nat := (c.receiveErrors, c.transmitFailures, c.engineExhaustions)

/-- A change of one field on the note path. -/
inductive FineMove : State → State → Prop
  | count (s : State) (c : Counters) (hnotes : c.linkCounters = s.stc.counters.linkCounters)
    (h : s.CountersInRange → (s.setStc { s.stc with counters := c }).CountersInRange) :
    FineMove s (s.setStc { s.stc with counters := c })
  | plu (s : State) (x : PlacementUnit) (hx : x.held.map (·.contact) = s.plu.held.map (·.contact)) :
    FineMove s (s.setPlu x)
  | append (s : State) (c n : Nat) (pair : PairName) (st : RecordState) (hnew : c ∉ s.plu.held.map (·.contact))
    (hroom : s.plu.held.length < 24) : FineMove s (s.appendRecord c n pair st)
  | drop (s : State) (c : Nat) : FineMove s (s.setPlu { s.plu with held := s.plu.held.filter (·.contact != c) })
  | roster (s : State) (n : NoteRoster) : FineMove s (s.setNrs n)
  | report (s : State) (k : Slot) : FineMove s (s.reportCount k)
  | restart (s : State) (k : Slot) : FineMove s (s.restartLevel k)
  | enqueue (s : State) (f : NoteFrame) : FineMove s (s.enqueue f)
  | filter (s : State) (p : QueueItem → Bool) : FineMove s (s.mapQueue fun q => q.filter p)
  | replace (s : State) (tag : Nat) (f : NoteFrame) : FineMove s (s.replaceTag tag f)
  | hold (s : State) (b : Bool) : FineMove s (s.holdWithdrawal b)

/-- A run of changes of one field each. -/
def FineMoves : State → State → Prop := Relation.ReflTransGen FineMove

namespace FineMoves

theorem refl (s : State) : FineMoves s s := Relation.ReflTransGen.refl

theorem one {s t : State} (h : FineMove s t) : FineMoves s t := Relation.ReflTransGen.single h

theorem trans {s t u : State} (h : FineMoves s t) (g : FineMoves t u) : FineMoves s u := Relation.ReflTransGen.trans h g

/-- A law kept by every change of one field is kept by every run of them. -/
theorem keeps {P : State → Prop} (hP : ∀ s t, FineMove s t → P s → P t) {s t : State} (h : FineMoves s t) (hs : P s) :
    P t := by
  induction h with
  | refl => exact hs
  | tail _ hmove ih => exact hP _ _ hmove ih

theorem foldl {α : Type} {f : State → α → State} (hf : ∀ s a, FineMoves s (f s a)) (l : List α) (s : State) :
    FineMoves s (l.foldl f s) := by
  induction l generalizing s with
  | nil => exact refl s
  | cons a l ih => exact (hf s a).trans (ih _)

/-- A count of one of the counters on the note path leaves every counter within its range. -/
theorem counted (s : State) (f : Counters → Counters) (hnotes : ∀ c, (f c).linkCounters = c.linkCounters)
    (h : s.CountersInRange → (s.mapCounters f).CountersInRange) : FineMoves s (s.mapCounters f) :=
  one (.count s (f s.stc.counters) (hnotes _) h)

theorem countUnplaced (s : State) : FineMoves s s.countUnplaced :=
  counted s _ (fun _ => rfl) fun ⟨_, h⟩ => ⟨satAdd_le _ _, h⟩

theorem countMisses (s : State) (n : Nat) : FineMoves s (s.countMisses n) :=
  counted s _ (fun _ => rfl) fun ⟨h1, _, h⟩ => ⟨h1, satAdd_le _ _, h⟩

theorem countStolen (s : State) : FineMoves s s.countStolen :=
  counted s _ (fun _ => rfl) fun ⟨h1, h2, _, h⟩ => ⟨h1, h2, satAdd_le _ _, h⟩

theorem countHeldOverflow (s : State) : FineMoves s s.countHeldOverflow :=
  counted s _ (fun _ => rfl) fun ⟨h1, h2, h3, _, h⟩ => ⟨h1, h2, h3, satAdd_le _ _, h⟩

theorem countIfStolen (s : State) (a : EndArticulation) : FineMoves s (s.countIfStolen a) := by
  unfold State.countIfStolen
  split
  · exact countStolen s
  · exact refl s

/-! ## The Note Roster -/

theorem mapEntry (s : State) (tag : Nat) (f : RosterEntry → RosterEntry) : FineMoves s (s.mapEntry tag f) :=
  one (.roster s _)

theorem queueStop (s : State) (tag : Nat) (a : EndArticulation) : FineMoves s (s.queueStop tag a) :=
  ((mapEntry s tag _).trans (one (.enqueue _ _))).trans (countIfStolen _ a)

theorem endEntry (s : State) (tag : Nat) (a : EndArticulation) : FineMoves s (s.endEntry tag a) := by
  rcases State.endEntry_cases s tag a with ⟨-, h⟩ | ⟨e, -, h⟩
  · rw [h]
    exact refl s
  · rcases h with ⟨-, h⟩ | ⟨-, -, h⟩ | ⟨-, -, h⟩ | ⟨-, -, -, h⟩ | ⟨-, -, h⟩ <;> rw [h]
    · exact refl s
    · exact ((mapEntry s tag _).trans (one (.hold _ _))).trans (one (.report _ _))
    · exact ((one (.filter s _)).trans (one (.roster _ _))).trans (one (.report _ _))
    · exact (((mapEntry s tag _).trans (one (.replace _ _ _))).trans (countIfStolen _ a)).trans (one (.report _ _))
    · exact ((mapEntry s tag _).trans (queueStop _ tag a)).trans (one (.report _ _))

theorem endVictim (s : State) (tag : Nat) (a : EndArticulation) : FineMoves s (s.endVictim tag a) :=
  (endEntry s tag a).trans (one (.plu _ _ (by simp [Function.comp_def])))

theorem newEntry (s : State) (r : NoteRequest) (k : Slot) (pitch : Nat) : FineMoves s (s.newEntry r k pitch).2 :=
  ((one (.roster s _)).trans (one (.enqueue _ _))).trans (one (.report _ k))

theorem capacityStep (s : State) (r : NoteRequest) (k : Slot) (pitch : Nat) :
    FineMoves s (s.capacityStep r k pitch).2 := by
  unfold State.capacityStep
  split
  · exact newEntry s r k pitch
  · split
    · exact refl s
    · dsimp only
      split
      · exact (endVictim s _ _).trans (newEntry _ r k pitch)
      · exact endVictim s _ _

theorem newNote (s : State) (r : NoteRequest) (k : Slot) (pitch : Nat) : FineMoves s (s.newNote r k pitch).2 := by
  unfold State.newNote
  split
  · exact capacityStep s r k pitch
  · split
    · exact refl s
    · split
      · exact capacityStep s r k pitch
      · exact (endVictim s _ _).trans (capacityStep _ r k pitch)

theorem revive (s : State) (r : NoteRequest) (e : RosterEntry) : FineMoves s (s.revive r e).2 := by
  unfold State.revive
  split
  · dsimp only
    split
    · exact ((one (.filter s _)).trans (mapEntry _ _ _)).trans (one (.report _ _))
    · exact ((one (.hold s _)).trans (mapEntry _ _ _)).trans (one (.report _ _))
  · exact refl s

theorem handleRequest (s : State) (r : NoteRequest) : FineMoves s (s.handleRequest r).2 := by
  unfold State.handleRequest
  split
  · exact refl s
  · split
    · exact newNote s r _ _
    · split
      · exact mapEntry s _ _
      · split
        · exact one (.roster s _)
        · exact revive s r _

theorem answerRequest (s : State) (r : NoteRequest) : FineMoves s (s.answerRequest r).2 := by
  have h := handleRequest s r
  unfold State.answerRequest
  split
  · rename_i t heq
    rw [heq] at h
    exact h.trans (countUnplaced t)
  · exact h

theorem refreshEntry (s : State) (e : RosterEntry) : FineMoves s (s.refreshEntry e) := by
  unfold State.refreshEntry
  split
  · exact (mapEntry s _ _).trans (one (.enqueue _ _))
  · exact refl s

/-- Each move of the note path is a run of changes of one field. -/
theorem of_noteMove {s t : State} (h : NoteMove s t) : FineMoves s t := by
  cases h with
  | unplaced => exact countUnplaced s
  | misses n => exact countMisses s n
  | overflow => exact countHeldOverflow s
  | plu x hx => exact one (.plu s x hx)
  | append c n pair st hnew hroom => exact one (.append s c n pair st hnew hroom)
  | drop c => exact one (.drop s c)
  | release tag => exact mapEntry s tag _
  | ending tag a => exact endEntry s tag a
  | request r => exact answerRequest s r
  | turnMark => exact one (.roster s _)
  | withdrawBow => exact one (.filter s _)
  | bow d mask => exact one (.enqueue s _)
  | refresh => exact foldl refreshEntry _ s
  | restart => exact foldl (fun t k => one (.restart t k)) _ s
  | answerOwed => exact one (.roster s _)
  | settle => exact one (.roster s _)

theorem of_noteMoves {s t : State} (h : NoteMoves s t) : FineMoves s t := by
  induction h with
  | refl => exact refl s
  | tail _ hmove ih => exact ih.trans (of_noteMove hmove)

end FineMoves

/-! ## What the other operations leave -/

theorem State.LevelsOnly.regrouped (s : State) (d : Direction) (level : Nat) :
    State.LevelsOnly (s.setGrf { s.grf with direction := d, level := level }) (s.regrouped d level) := by
  unfold State.regrouped
  dsimp only
  split
  · exact .recomputeLevels _
  · exact .refl _

theorem State.headEnded_cases (s : State) (a : Attempt) (r : AttemptResult) (q : QueueItem) (rest : List QueueItem) :
    s.headEnded a r q rest = ((s.mapQueue fun _ => rest).recordDrop (outcomeOf a.failures r)).frameOut q.frame ∨
    s.headEnded a r q rest = (s.mapQueue fun _ => rest).frameBack q.frame ∨
    s.headEnded a r q rest =
      (s.mapQueue fun _ => ⟨q.frame, failuresAfter a.failures r⟩ :: rest).frameBack q.frame := by
  unfold State.headEnded
  cases outcomeOf a.failures r with
  | unsuccessful => cases a.withdraw <;> simp
  | transmitted | dropped => exact .inl rfl

namespace FineMoves

theorem taken (s : State) : FineMoves s s.taken := by
  unfold State.taken
  split
  · exact refl s
  · exact one (.roster s _)

theorem startGoneOut (s : State) (tag : Nat) : FineMoves s (s.startGoneOut tag) := by
  unfold State.startGoneOut
  split
  · exact refl s
  · split
    · exact mapEntry s tag _
    · exact queueStop s tag _

theorem payOwedBow (s : State) : FineMoves s s.payOwedBow := by
  unfold State.payOwedBow
  split
  · exact refl s
  · exact (one (.enqueue s _)).trans (one (.plu _ _ rfl))

theorem frameOut (s : State) (f : NoteFrame) : FineMoves s (s.frameOut f) := by
  cases f with
  | start tag _ _ _ _ => exact startGoneOut s tag
  | refreshStart tag _ _ _ => exact startGoneOut s tag
  | stop tag _ => exact (one (.roster s _)).trans (taken _)
  | bow _ _ => exact payOwedBow s

theorem frameBack (s : State) (f : NoteFrame) : FineMoves s (s.frameBack f) := by
  have hwithdraw : ∀ tag, FineMoves s (s.withdrawTag tag) := fun tag => one (.filter s _)
  cases f with
  | start tag _ _ _ _ =>
    unfold State.frameBack State.noteNotGoneOut
    dsimp only
    split
    · exact refl s
    · split
      · exact refl s
      · exact (hwithdraw tag).trans (one (.roster _ _))
  | refreshStart tag _ _ _ =>
    unfold State.frameBack State.noteNotGoneOut
    dsimp only
    split
    · exact refl s
    · split
      · exact refl s
      · exact (hwithdraw tag).trans (queueStop _ tag _)
  | stop tag _ => exact taken s
  | bow _ _ =>
    unfold State.frameBack State.noteNotGoneOut
    dsimp only
    split
    · exact (one (.filter s _)).trans (payOwedBow _)
    · exact refl s

end FineMoves

/-- A change of one field on the note path leaves the blocks no note passes through. -/
theorem FineMove.notesOnly {s t : State} (h : FineMove s t) : State.NotesOnly s t := by
  cases h with
  | count | plu | append | drop | roster | enqueue | filter | replace | hold => rfl
  | report k => exact .reportCount s k
  | restart k => exact .restartLevel s k

theorem FineMoves.notesOnly {s t : State} (h : FineMoves s t) : State.NotesOnly s t := by
  induction h with
  | refl => exact .refl s
  | tail _ hmove ih => exact ih.trans hmove.notesOnly

/-! ## The counters -/

theorem FineMove.keeps_counters {s t : State} (h : FineMove s t) (hs : s.CountersInRange) : t.CountersInRange := by
  have hlevels : State.LevelsOnly s t → t.CountersInRange := fun g => by
    unfold State.CountersInRange
    rw [g.stc_eq]
    exact hs
  cases h with
  | count c _ hc => exact hc hs
  | report k => exact hlevels (.reportCount s k)
  | restart k => exact hlevels (.restartLevel s k)
  | plu | append | drop | roster | enqueue | filter | replace | hold => exact hs

theorem State.CountersInRange.of_eq {s t : State} (h : t.stc.counters = s.stc.counters) (hs : s.CountersInRange) :
    t.CountersInRange := by
  unfold State.CountersInRange
  rw [h]
  exact hs

theorem State.CountersInRange.notes {s t : State} (h : NoteMoves s t) (hs : s.CountersInRange) : t.CountersInRange :=
  (FineMoves.of_noteMoves h).keeps (fun _ _ => FineMove.keeps_counters) hs

theorem State.CountersInRange.fine {s t : State} (h : FineMoves s t) (hs : s.CountersInRange) : t.CountersInRange :=
  h.keeps (fun _ _ => FineMove.keeps_counters) hs

theorem State.CountersInRange.recordDrop {s : State} (o : AttemptOutcome) (hs : s.CountersInRange) :
    (s.recordDrop o).CountersInRange := by
  unfold State.recordDrop
  split
  · obtain ⟨h1, h2, h3, h4, h5, -, h7⟩ := hs
    exact ⟨h1, h2, h3, h4, h5, satAdd_le _ _, h7⟩
  · exact hs

theorem Move.keeps_counters {s t : State} (h : Move s t) (hs : s.CountersInRange) : t.CountersInRange := by
  cases h with
  | notes hstation h => exact hs.notes h
  | elapse =>
    refine .of_eq ?_ hs
    unfold State.elapse
    split <;> rfl
  | resetPin => exact .of_eq (s := State.reset) rfl State.countersInRange_reset
  | risingEdge h =>
    refine .of_eq (s := State.reset) ?_ State.countersInRange_reset
    simp [State.risingEdge, h, State.startLoading]
  | record img h => exact .of_eq (congrArg _ (State.LevelsOnly.recomputeLevels _).stc_eq) hs
  | join h hengine =>
    refine .of_eq ?_ hs
    unfold State.startJoining
    dsimp only
    split <;> rfl
  | write key f h => exact .of_eq (congrArg _ (State.LevelsOnly.writeEntry s key f).stc_eq) hs
  | group d level h => exact .of_eq (congrArg _ (State.LevelsOnly.regrouped s d level).stc_eq) hs
  | registration n => exact .of_eq (congrArg _ (State.LevelsOnly.recomputeLevels _).stc_eq) hs
  | limits => exact .notes (NoteMoves.trimAll s.recomputeLimits) hs
  | exhaustion =>
    obtain ⟨h1, h2, h3, h4, h5, h6, -⟩ := hs
    exact ⟨h1, h2, h3, h4, h5, h6, satAdd_le _ _⟩
  | receiveError =>
    obtain ⟨h1, h2, h3, h4, -, h⟩ := hs
    exact ⟨h1, h2, h3, h4, satAdd_le _ _, h⟩
  | idle =>
    refine .of_eq ?_ hs
    rcases s.idle_cases with ⟨-, h⟩ | ⟨a, -, -, -, h⟩ | ⟨-, -, h⟩ <;> rw [h] <;> rfl
  | tableEnds a key r htx h =>
    have hdrop : (((s.freed r).putEntry key (entryAfter ((s.freed r).lkc.updates.get key) a r)).recordDrop
        (outcomeOf a.failures r)).CountersInRange := .recordDrop _ hs
    unfold State.endTableAttempt
    cases key <;> exact hdrop
  | headEnds a q rest r htx h hq hnotes =>
    refine .fine (.of_noteMoves hnotes) ?_
    rcases (s.freed r).headEnded_cases a r q rest with h | h | h <;> rw [h]
    · exact .fine (.frameOut _ _) (.recordDrop _ hs)
    · exact .fine (.frameBack _ _) hs
    · exact .fine (.frameBack _ _) hs
  | pending | fault | loading | port | rate | timers | station | scanner | unit | sensor | presenceTimer | stale
  | sourceLost | sourceFresh | source | engineLive | engineAbsent | dropEnds | offers | peer | receive | deliver
  | ownTaken | endsUnreported => exact hs

/-! ## The held-button list -/

/-- The law of the held-button list is one of its contacts. -/
theorem State.HeldListLawful.of_contacts {s t : State}
    (h : t.plu.held.map (·.contact) = s.plu.held.map (·.contact)) (hs : s.HeldListLawful) : t.HeldListLawful := by
  obtain ⟨hlength, hnodup⟩ := hs
  have hcount := congrArg List.length h
  rw [List.length_map, List.length_map] at hcount
  exact ⟨hcount ▸ hlength, h ▸ hnodup⟩

theorem State.HeldListLawful.of_eq {s t : State} (h : t.plu = s.plu) (hs : s.HeldListLawful) : t.HeldListLawful :=
  .of_contacts (by rw [h]) hs

theorem State.HeldListLawful.append {s : State} {c : Nat} (hs : s.HeldListLawful)
    (hnew : c ∉ s.plu.held.map (·.contact)) (hroom : s.plu.held.length < 24) (n : Nat) (pair : PairName)
    (st : RecordState) : (s.appendRecord c n pair st).HeldListLawful := by
  refine ⟨by simp [State.appendRecord]; omega, ?_⟩
  simp only [State.appendRecord, State.setPlu_plu, List.map_append, List.map_cons, List.map_nil]
  exact List.nodup_append.2 ⟨hs.2, List.nodup_singleton c, fun x hx y hy => by
    rw [List.mem_singleton] at hy
    rintro rfl
    exact hnew (hy ▸ hx)⟩

theorem State.HeldListLawful.drop {s : State} (c : Nat) (hs : s.HeldListLawful) :
    (s.setPlu { s.plu with held := s.plu.held.filter (·.contact != c) }).HeldListLawful :=
  ⟨(List.length_filter_le _ _).trans hs.1, (List.filter_sublist.map _).nodup hs.2⟩

theorem FineMove.keeps_heldList {s t : State} (h : FineMove s t) (hs : s.HeldListLawful) : t.HeldListLawful := by
  cases h with
  | plu x hx => exact .of_contacts hx hs
  | append c n pair st hnew hroom => exact hs.append hnew hroom n pair st
  | drop c => exact hs.drop c
  | report k => exact .of_eq (State.reportCount_plu s k) hs
  | restart k => exact .of_eq (State.LevelsOnly.restartLevel s k).plu_eq hs
  | count | roster | enqueue | filter | replace | hold => exact hs

theorem State.HeldListLawful.fine {s t : State} (h : FineMoves s t) (hs : s.HeldListLawful) : t.HeldListLawful :=
  h.keeps (fun _ _ => FineMove.keeps_heldList) hs

theorem State.recordDrop_plu (s : State) (o : AttemptOutcome) : (s.recordDrop o).plu = s.plu := by
  unfold State.recordDrop
  split <;> rfl

theorem State.endTableAttempt_plu (s : State) (key : TableKey) (a : Attempt) (r : AttemptResult) :
    (s.endTableAttempt key a r).plu = s.plu := by
  unfold State.endTableAttempt
  cases key <;> exact State.recordDrop_plu _ _

theorem Move.keeps_heldList {s t : State} (h : Move s t) (hs : s.HeldListLawful) : t.HeldListLawful := by
  cases h with
  | notes hstation h => exact .fine (.of_noteMoves h) hs
  | elapse =>
    refine .of_contacts ?_ hs
    unfold State.elapse
    split <;> rfl
  | resetPin => exact State.heldListLawful_reset
  | risingEdge h =>
    refine .of_eq (s := State.reset) ?_ State.heldListLawful_reset
    simp only [State.risingEdge, h, if_true]
    rfl
  | loading => exact .of_contacts (s := State.reset) rfl State.heldListLawful_reset
  | record img h => exact .of_contacts (congrArg (fun x => x.held.map (·.contact))
      (State.LevelsOnly.recomputeLevels _).plu_eq) hs
  | join h hengine =>
    refine .of_eq ?_ hs
    unfold State.startJoining
    dsimp only
    split <;> rfl
  | write key f h => exact .of_eq (State.LevelsOnly.writeEntry s key f).plu_eq hs
  | group d level h => exact .of_eq (State.LevelsOnly.regrouped s d level).plu_eq hs
  | registration n => exact .of_eq (State.LevelsOnly.recomputeLevels _).plu_eq hs
  | limits => exact .fine (.of_noteMoves (.trimAll s.recomputeLimits)) hs
  | idle =>
    refine .of_eq ?_ hs
    rcases s.idle_cases with ⟨-, h⟩ | ⟨a, -, -, -, h⟩ | ⟨-, -, h⟩ <;> rw [h] <;> rfl
  | tableEnds a key r htx h => exact .of_eq (State.endTableAttempt_plu (s.freed r) key a r) hs
  | headEnds a q rest r htx h hq hnotes =>
    refine .fine (.of_noteMoves hnotes) ?_
    rcases (s.freed r).headEnded_cases a r q rest with h | h | h <;> rw [h]
    · exact .fine (.frameOut _ _) (.of_eq (State.recordDrop_plu ((s.freed r).mapQueue fun _ => rest) _) hs)
    · exact .fine (.frameBack _ _) hs
    · exact .fine (.frameBack _ _) hs
  | pending | fault | port | rate | timers | station | scanner | unit | sensor | presenceTimer | stale | sourceLost
  | sourceFresh | source | engineLive | engineAbsent | dropEnds | offers | peer | exhaustion | receiveError | receive
  | deliver | ownTaken | endsUnreported => exact hs

/-! ## The Link Controller's lists -/

/-- The frames of an update table belong to their keys, and none has failed 16 times. -/
def UpdateTable.Lawful (t : UpdateTable) : Prop :=
  ∀ key e, t.get key = some e → e.frame.fits key = true ∧ e.failures < 16

theorem UpdateTable.Lawful.put {t : UpdateTable} (h : t.Lawful) (key : TableKey) {e : Option TableEntry}
    (he : ∀ x, e = some x → x.frame.fits key = true ∧ x.failures < 16) : (t.put key e).Lawful := by
  intro key' x hx
  by_cases hkey : key = key'
  · subst hkey
    rw [UpdateTable.get_put_self] at hx
    exact he x hx
  · rw [UpdateTable.get_put_ne t e hkey] at hx
    exact h key' x hx

/-- An attempt in flight that carries the frame and the count of the one before is as lawful. -/
theorem tx_lawful_of_same {tx tx' : Option Attempt} {driven : List Bool}
    (h : tx'.map (fun a => (a.source, a.frame, a.failures)) = tx.map fun a => (a.source, a.frame, a.failures))
    (hs : ∀ a, tx = some a → a.failures < 16 ∧ ∃ sender, driven = a.frame.bits sender) :
    ∀ a, tx' = some a → a.failures < 16 ∧ ∃ sender, driven = a.frame.bits sender := by
  rintro a rfl
  cases tx with
  | none => cases h
  | some b =>
    simp only [Option.map_some, Option.some.injEq, Prod.mk.injEq] at h
    obtain ⟨-, hframe, hfailures⟩ := h
    rw [hframe, hfailures]
    exact hs b rfl

/-- What the levels' changes keep of the Link Controller's law: it is enough that the table stays lawful. -/
theorem State.LinkLawful.of_levelsOnly {s t : State} (h : State.LevelsOnly s t) (ht : t.lkc.updates.Lawful)
    (hs : s.LinkLawful) : t.LinkLawful := by
  obtain ⟨hrx, -, hqueue, htx⟩ := hs
  have hlkc : t.lkc.rxBuffer = s.lkc.rxBuffer ∧ t.lkc.driven = s.lkc.driven := by
    rw [h.1]
    exact ⟨rfl, rfl⟩
  refine ⟨hlkc.1 ▸ hrx, ht, h.noteQueue_eq ▸ hqueue, ?_⟩
  rw [hlkc.2]
  exact tx_lawful_of_same h.2 htx

theorem State.LinkLawful.of_eq {s t : State} (h : t.lkc = s.lkc) (hs : s.LinkLawful) : t.LinkLawful := by
  unfold State.LinkLawful
  rw [h]
  exact hs

theorem State.LinkLawful.mapQueue {s : State} {f : List QueueItem → List QueueItem} (hs : s.LinkLawful)
    (hf : ∀ q ∈ f s.lkc.noteQueue, q.failures < 16) : (s.mapQueue f).LinkLawful :=
  ⟨hs.1, hs.2.1, hf, hs.2.2.2⟩

theorem State.LinkLawful.writeEntry {s : State} (hs : s.LinkLawful) {key : TableKey} {f : OutFrame}
    (h : f.fits key = true) : (s.writeEntry key f).LinkLawful := by
  refine .of_levelsOnly (.writeEntry s key f) ?_ hs
  rw [State.writeEntry_updates]
  refine UpdateTable.Lawful.put hs.2.1 key ?_
  rintro x ⟨⟩
  exact ⟨h, by simp⟩

theorem State.LinkLawful.writeLevel {s : State} (hs : s.LinkLawful) (k : Slot) : (s.writeLevel k).LinkLawful :=
  .of_eq (s := s.writeEntry (.level k) (.level k (s.lvu.sectionLevel.get k))) rfl (hs.writeEntry (by simp [OutFrame.fits]))

theorem State.LinkLawful.removeEntry {s : State} (hs : s.LinkLawful) (key : TableKey) :
    (s.removeEntry key).LinkLawful := by
  refine .of_levelsOnly (.removeEntry s key) ?_ hs
  rw [State.removeEntry_eq]
  dsimp only
  split
  · exact hs.2.1
  · exact UpdateTable.Lawful.put hs.2.1 key (by simp)

theorem State.LinkLawful.reportCount {s : State} (hs : s.LinkLawful) (k : Slot) : (s.reportCount k).LinkLawful := by
  unfold State.reportCount State.levelRises State.removeLevel
  dsimp only
  split
  · split
    · refine State.LinkLawful.writeLevel ?_ k
      exact hs
    · exact hs
  · have hremove : ∀ t : State, t.lkc = s.lkc → (t.removeEntry (.level k)).LinkLawful :=
      fun t ht => .removeEntry (.of_eq ht hs) _
    split
    · split
      · exact hs
      · split
        · exact hremove _ rfl
        · exact hremove _ rfl
    · exact hs

theorem State.LinkLawful.restartLevel {s : State} (hs : s.LinkLawful) (k : Slot) : (s.restartLevel k).LinkLawful := by
  unfold State.restartLevel
  split
  · exact hs.writeLevel k
  · exact hs

theorem State.LinkLawful.recomputeLevels {s : State} (hs : s.LinkLawful) : s.recomputeLevels.LinkLawful := by
  have hfold : ∀ (l : List Slot) (t : State), t.LinkLawful → (l.foldl State.examineLevel t).LinkLawful := by
    intro l
    induction l with
    | nil => exact fun t ht => ht
    | cons k l ih =>
      refine fun t ht => ih _ ?_
      unfold State.examineLevel
      split
      · exact ht.writeLevel k
      · exact ht
  exact hfold slots _ hs

theorem FineMove.keeps_link {s t : State} (h : FineMove s t) (hs : s.LinkLawful) : t.LinkLawful := by
  have hqueue := hs.2.2.1
  cases h with
  | report k => exact hs.reportCount k
  | restart k => exact hs.restartLevel k
  | enqueue f =>
    refine hs.mapQueue fun q hq => ?_
    rcases List.mem_append.1 hq with hq | hq
    · exact hqueue q hq
    · simp [List.mem_singleton.1 hq]
  | filter p => exact hs.mapQueue fun q hq => hqueue q (List.mem_of_mem_filter hq)
  | replace tag f =>
    refine hs.mapQueue fun q hq => ?_
    obtain ⟨p, hp, rfl⟩ := List.mem_map.1 hq
    split
    · simp
    · exact hqueue p hp
  | hold b => exact ⟨hs.1, hs.2.1, hqueue, tx_lawful_of_same (by simp [State.holdWithdrawal, Function.comp_def]) hs.2.2.2⟩
  | count | plu | append | drop | roster => exact hs

theorem State.LinkLawful.fine {s t : State} (h : FineMoves s t) (hs : s.LinkLawful) : t.LinkLawful :=
  h.keeps (fun _ _ => FineMove.keeps_link) hs

theorem State.LinkLawful.freed {s : State} (hs : s.LinkLawful) (r : AttemptResult) : (s.freed r).LinkLawful :=
  ⟨hs.1, hs.2.1, hs.2.2.1, by simp [State.freed]⟩

theorem State.LinkLawful.recordDrop {s : State} (hs : s.LinkLawful) (o : AttemptOutcome) :
    (s.recordDrop o).LinkLawful := by
  unfold State.recordDrop
  split
  · exact hs
  · exact hs

/-- A failure count after an attempt that is tried again stays below 16 (R157, R158). -/
theorem failuresAfter_lt {n : Nat} {r : AttemptResult} (hn : n < 16) (h : outcomeOf n r = .unsuccessful) :
    failuresAfter n r < 16 := by
  cases r with
  | failure =>
    by_contra hge
    simp only [failuresAfter, Nat.not_lt] at hge
    simp [outcomeOf, Nat.not_lt.2 hge] at h
  | success | lostArbitration => exact hn

theorem entryAfter_lawful {e : Option TableEntry} {a : Attempt} {r : AttemptResult} {key : TableKey}
    (he : ∀ x, e = some x → x.frame.fits key = true ∧ x.failures < 16) (ha : a.failures < 16) :
    ∀ x, entryAfter e a r = some x → x.frame.fits key = true ∧ x.failures < 16 := by
  intro x hx
  unfold entryAfter at hx
  cases ho : outcomeOf a.failures r with
  | unsuccessful =>
    rw [ho] at hx
    dsimp only at hx
    split at hx
    · cases hx
    · split at hx
      · exact he x hx
      · obtain ⟨y, hy, rfl⟩ := Option.map_eq_some_iff.1 hx
        exact ⟨(he y hy).1, failuresAfter_lt ha ho⟩
  | transmitted | dropped =>
    rw [ho] at hx
    dsimp only at hx
    split at hx
    · exact he x hx
    · cases hx

theorem State.LinkLawful.endTableAttempt {s : State} (hs : s.LinkLawful) (key : TableKey) {a : Attempt}
    (ha : a.failures < 16) (r : AttemptResult) : (s.endTableAttempt key a r).LinkLawful := by
  have hput : (s.putEntry key (entryAfter (s.lkc.updates.get key) a r)).LinkLawful :=
    ⟨hs.1, UpdateTable.Lawful.put hs.2.1 key (entryAfter_lawful (hs.2.1 key) ha), hs.2.2.1, hs.2.2.2⟩
  unfold State.endTableAttempt
  cases key <;> exact hput.recordDrop _

/-- What the arbiter chooses has failed fewer than 16 times, as what waits has. -/
theorem State.LinkLawful.choice {s : State} (hs : s.LinkLawful) {a : Attempt} (h : s.lkc.choice = some a) :
    a.failures < 16 := by
  obtain ⟨-, hupdates, hqueue, -⟩ := hs
  have hattempt : ∀ key b, s.lkc.updates.attempt key = some b → b.failures < 16 := by
    intro key b hb
    obtain ⟨e, he, rfl⟩ := Option.map_eq_some_iff.1 hb
    exact (hupdates key e he).2
  unfold LinkController.choice at h
  split at h
  · rename_i b hb
    cases h
    exact hattempt _ _ hb
  · split at h
    · rename_i q rest hq
      cases h
      exact hqueue q (by simp [hq])
    · obtain ⟨key, -, hkey⟩ := List.exists_of_findSome?_eq_some h
      exact hattempt key a hkey

theorem Move.keeps_link {s t : State} (h : Move s t) (hs : s.LinkLawful) : t.LinkLawful := by
  obtain ⟨hrx, hupdates, hqueue, htx⟩ := id hs
  cases h with
  | notes hstation h => exact .fine (.of_noteMoves h) hs
  | elapse =>
    unfold State.elapse
    split
    · exact hs
    · exact hs
  | resetPin => exact State.linkLawful_reset
  | risingEdge h =>
    refine .of_eq (s := State.reset) ?_ State.linkLawful_reset
    simp only [State.risingEdge, h, if_true]
    rfl
  | fault reason => exact ⟨hrx, hupdates, hqueue, by simp [State.enterFault]⟩
  | loading =>
    refine ⟨by simp [State.startLoading, LinkController.reset], ?_, by simp [State.startLoading, LinkController.reset], ?_⟩
    · simp [State.startLoading, LinkController.reset, UpdateTable.get_empty]
    · intro a ha
      obtain ⟨b, hb, rfl⟩ := Option.map_eq_some_iff.1 ha
      have hdriven : s.startLoading.lkc.driven = s.lkc.driven := by simp [State.startLoading, hb]
      rw [hdriven]
      exact htx b hb
  | record img h => exact .recomputeLevels hs
  | join h hengine =>
    refine .of_eq ?_ hs
    unfold State.startJoining
    dsimp only
    split <;> rfl
  | write key f h => exact hs.writeEntry h
  | group d level h =>
    unfold State.regrouped
    dsimp only
    split
    · exact .recomputeLevels hs
    · exact hs
  | registration n => exact .recomputeLevels hs
  | limits => exact .fine (.of_noteMoves (.trimAll s.recomputeLimits)) hs
  | receive f h => exact ⟨by simp; omega, hupdates, hqueue, htx⟩
  | deliver f rest h =>
    rw [h, List.length_cons] at hrx
    exact ⟨by simp; omega, hupdates, hqueue, htx⟩
  | ownTaken h => exact ⟨hrx, hupdates, hqueue, by simp [h]⟩
  | idle =>
    rcases s.idle_cases with ⟨-, h⟩ | ⟨a, -, -, hchoice, h⟩ | ⟨-, -, h⟩ <;> rw [h]
    · exact hs
    · refine ⟨hrx, hupdates, hqueue, ?_⟩
      rintro b ⟨⟩
      exact ⟨hs.choice hchoice, _, rfl⟩
    · exact ⟨hrx, hupdates, hqueue, by simp⟩
  | endsUnreported a r htx h => exact hs.freed r
  | tableEnds a key r ha h => exact (hs.freed r).endTableAttempt key (htx a ha).1 r
  | headEnds a q rest r ha h hq hnotes =>
    have hrest : ∀ p ∈ rest, p.failures < 16 := fun p hp => hqueue p (by simp [hq, hp])
    refine .fine (.of_noteMoves hnotes) ?_
    unfold State.headEnded
    cases ho : outcomeOf a.failures r with
    | unsuccessful =>
      dsimp only
      split
      · exact .fine (.frameBack _ _) ((hs.freed r).mapQueue hrest)
      · refine .fine (.frameBack _ _) ((hs.freed r).mapQueue fun p hp => ?_)
        rcases List.mem_cons.1 hp with rfl | hp
        · exact failuresAfter_lt (htx a ha).1 ho
        · exact hrest p hp
    | transmitted => exact .fine (.frameOut _ _) (((hs.freed r).mapQueue hrest).recordDrop _)
    | dropped => exact .fine (.frameOut _ _) (((hs.freed r).mapQueue hrest).recordDrop _)
  | pending | port | rate | timers | station | scanner | unit | sensor | presenceTimer | stale | sourceLost
  | sourceFresh | source | engineLive | engineAbsent | dropEnds | offers | peer | exhaustion | receiveError => exact hs

/-- Settles O54: each bound is kept by every move of a step. -/
theorem stepsKeepTheBounds : Obligations.StepsKeepTheBounds :=
  fun _ _ hstep => ⟨(Moves.step hstep).keeps fun _ _ => Move.keeps_counters,
    (Moves.step hstep).keeps fun _ _ => Move.keeps_heldList, (Moves.step hstep).keeps fun _ _ => Move.keeps_link⟩

end Sys2Proof.Machine
end

section
/-! PROOFS. The arithmetic of the fold of a raw pitch (section 4.6) and of the measuring chain (section 3.5). -/

namespace Sys2Proof.Machine

/-! ## The fold (R62) -/

/-- The least number of whole octaves that cover a distance. -/
theorem ceilDiv_twelve (n : Int) : n ≤ 12 * ceilDiv n 12 ∧ 12 * ceilDiv n 12 < n + 12 := by
  have h := ceilDiv_spec n (d := 12) (by decide)
  omega

/-- Settles O19: octaves down below the upper bound, octaves up above the lower one, and the upper bound where the range
holds no such pitch. -/
theorem foldLandsInTheRange : Obligations.FoldLandsInTheRange := by
  intro q lo hi hrange
  have hdown := ceilDiv_twelve (q - hi)
  set q1 : Int := if q > hi then q - 12 * ceilDiv (q - hi) 12 else q with hq1
  have hup := ceilDiv_twelve (lo - q1)
  set q2 : Int := if q1 < lo then q1 + 12 * ceilDiv (lo - q1) 12 else q1 with hq2
  have hfold : fold q lo hi = if q2 > hi then (hi : Int) else q2 := rfl
  have hoctaves : ∃ n : Int, q2 = q + 12 * n := by
    obtain ⟨a, ha⟩ : ∃ a : Int, q1 = q + 12 * a := by
      split at hq1
      · exact ⟨-ceilDiv (q - hi) 12, by omega⟩
      · exact ⟨0, by omega⟩
    split at hq2
    · exact ⟨a + ceilDiv (lo - q1) 12, by omega⟩
    · exact ⟨a, by omega⟩
  obtain ⟨n, hn⟩ := hoctaves
  have hq1_le : q1 ≤ hi ∧ (q > hi → hi - 11 ≤ q1) ∧ (q ≤ hi → q1 = q) := by
    split at hq1 <;> omega
  have hq2_ge : lo ≤ q2 ∧ (q1 < lo → q2 ≤ lo + 11) ∧ (lo ≤ q1 → q2 = q1) := by
    split at hq2 <;> omega
  rw [hfold]
  split
  · rename_i hover
    exact ⟨by omega, by omega, by omega, by omega, by omega, .inr ⟨by omega, rfl, fun m => by omega⟩⟩
  · exact ⟨by omega, by omega, by omega, by omega, by omega, .inl ⟨n, hn⟩⟩

/-! ## Rounding -/

theorem roundAway_of_nonneg {n : Int} (hn : 0 ≤ n) {d : Nat} (hd : 1 ≤ d) : 0 ≤ roundAway n d ∧ roundAway n d ≤ n := by
  have hd' : (0 : Int) < 2 * d := by omega
  have hle : n ≤ d * n := by nlinarith
  unfold roundAway
  rw [if_neg (by omega)]
  refine ⟨Int.ediv_nonneg (by omega) (by omega), Int.lt_add_one_iff.1 ((Int.ediv_lt_iff_lt_mul hd').2 ?_)⟩
  nlinarith

theorem roundAway_of_neg {n : Int} (hn : n < 0) (d : Nat) : roundAway n d = -roundAway (-n) d := by
  unfold roundAway
  rw [if_pos hn, if_neg (by omega)]

/-- A step of the smoothed magnitude leads toward the sample's magnitude, by at least 1 and not past it (R44). -/
theorem smoothingStep_bounds {k : Nat} {d : Int} :
    (0 < d → 1 ≤ smoothingStep k d ∧ smoothingStep k d ≤ d) ∧
      (d < 0 → d ≤ smoothingStep k d ∧ smoothingStep k d ≤ -1) ∧ (d = 0 → smoothingStep k d = 0) := by
  have hpow : 1 ≤ 2 ^ k := Nat.one_le_two_pow
  have hbound : ∀ n : Int, 0 ≤ n → 0 ≤ roundAway n (2 ^ k) ∧ roundAway n (2 ^ k) ≤ n := fun n hn =>
    roundAway_of_nonneg hn hpow
  unfold smoothingStep
  dsimp only
  refine ⟨fun hpos => ?_, fun hneg => ?_, fun hzero => ?_⟩
  · have h := hbound d (by omega)
    rw [if_pos hpos]
    split <;> omega
  · have h := hbound (-d) (by omega)
    rw [roundAway_of_neg hneg, if_neg (show ¬(0 < d) by omega)]
    split <;> omega
  · have h := hbound d (by omega)
    rw [if_neg (by omega)]
    omega

theorem magnitudeOf_mem {c : BellowsSettings} {p : Int} (hdead : c.deadBand ≤ 255) (hlow : -2047 ≤ p)
    (hhigh : p ≤ 2047) : 0 ≤ magnitudeOf c p ∧ magnitudeOf c p ≤ 2047 - c.deadBand := by
  unfold magnitudeOf
  split <;> omega

/-! ## The level read from the curve (R45) -/

theorem roundUp_le_of_le {n m : Int} {d : Nat} (hd : 0 < d) (h : n ≤ m * d) : roundUp n d ≤ m := by
  unfold roundUp
  exact Int.lt_add_one_iff.1 ((Int.ediv_lt_iff_lt_mul (by omega)).2 (by nlinarith))

theorem roundUp_nonneg {n : Int} (hn : 0 ≤ n) (d : Nat) : 0 ≤ roundUp n d :=
  Int.ediv_nonneg (by omega) (by omega)

theorem roundUp_mono {n m : Int} (h : n ≤ m) (d : Nat) : roundUp n d ≤ roundUp m d := by
  cases d with
  | zero => simp [roundUp]
  | succ d => exact Int.ediv_le_ediv (by omega) (by omega)

@[simp] theorem roundUp_zero (d : Nat) : roundUp 0 d = 0 := by
  cases d with
  | zero => rfl
  | succ d => exact Int.ediv_eq_zero_of_lt (by omega) (by omega)

/-- The point of the curve that a part f / d of the way from `low` to `high` gives. -/
def between (low high f d : Nat) : Nat :=
  ((low : Int) + roundUp (((high : Int) - low) * f) d).toNat

theorem levelOf_eq (c : BellowsSettings) (e : Int) : levelOf c e =
    if 16 ≤ 16 * e.toNat / c.magnitudeMax then c.curve.getD 16 0
    else between (c.curve.getD (16 * e.toNat / c.magnitudeMax) 0) (c.curve.getD (16 * e.toNat / c.magnitudeMax + 1) 0)
      (16 * e.toNat % c.magnitudeMax) c.magnitudeMax := by
  have hmod : 16 * e.toNat - 16 * e.toNat / c.magnitudeMax * c.magnitudeMax = 16 * e.toNat % c.magnitudeMax := by
    rw [Nat.mod_eq_sub_div_mul]
  unfold levelOf between
  dsimp only
  rw [hmod]

theorem between_le {low high f d m : Nat} (hf : 0 < d → f ≤ d) (hlow : low ≤ m) (hhigh : high ≤ m) :
    between low high f d ≤ m := by
  unfold between
  rcases Nat.eq_zero_or_pos d with rfl | hd
  · simp [roundUp, hlow]
  · have hpart : (((high : Int) - low) * f) ≤ ((m : Int) - low) * d := by
      have h := hf hd
      nlinarith
    have := roundUp_le_of_le hd hpart
    omega

theorem le_between {low high : Nat} (h : low ≤ high) (f d : Nat) : low ≤ between low high f d := by
  have := roundUp_nonneg (n := ((high : Int) - low) * f) (Int.mul_nonneg (by omega) (by omega)) d
  unfold between
  omega

theorem between_mono {low high f g : Nat} (h : low ≤ high) (hfg : f ≤ g) (d : Nat) :
    between low high f d ≤ between low high g d := by
  have hmono := roundUp_mono (Int.mul_le_mul_of_nonneg_left (Int.ofNat_le.2 hfg)
    (show (0 : Int) ≤ (high : Int) - low by omega)) d
  unfold between
  omega

theorem getD_le {l : List Nat} {m : Nat} (h : ∀ x ∈ l, x ≤ m) (i : Nat) : l.getD i 0 ≤ m := by
  rw [List.getD_eq_getElem?_getD]
  cases hi : l[i]? with
  | none => simp
  | some x => exact h x (List.mem_of_getElem? hi)

/-- A curve of points up to 127 gives no level above 127, whatever the magnitude. -/
theorem levelOf_le {c : BellowsSettings} (h : ∀ x ∈ c.curve, x ≤ 127) (e : Int) : levelOf c e ≤ 127 := by
  rw [levelOf_eq]
  split
  · exact getD_le h 16
  · exact between_le (fun hd => Nat.le_of_lt (Nat.mod_lt _ hd)) (getD_le h _) (getD_le h _)

theorem getD_mono {l : List Nat} (h : l.Pairwise (· ≤ ·)) {i j : Nat} (hij : i ≤ j) (hj : j < l.length) :
    l.getD i 0 ≤ l.getD j 0 := by
  rw [List.getD_eq_getElem _ _ (by omega), List.getD_eq_getElem _ _ hj]
  rcases Nat.lt_or_eq_of_le hij with hlt | rfl
  · exact List.pairwise_iff_getElem.1 h i j (by omega) hj hlt
  · exact Nat.le_refl _

/-- The level grows with the magnitude: within one part of the curve by its slope, and from part to part by its points. -/
theorem levelOf_mono {c : BellowsSettings} (hlength : c.curve.length = 17)
    (hcurve : c.curve.Pairwise (· ≤ ·)) {e1 e2 : Int} (h : e1 ≤ e2) : levelOf c e1 ≤ levelOf c e2 := by
  have hpoint : ∀ {i j : Nat}, i ≤ j → j ≤ 16 → c.curve.getD i 0 ≤ c.curve.getD j 0 := fun hij hj =>
    getD_mono hcurve hij (by omega)
  have hu : 16 * e1.toNat ≤ 16 * e2.toNat := by omega
  have hi := Nat.div_le_div_right (c := c.magnitudeMax) hu
  rw [levelOf_eq, levelOf_eq]
  generalize 16 * e1.toNat = u1 at hu hi ⊢
  generalize 16 * e2.toNat = u2 at hu hi ⊢
  have hbelow : ∀ u : Nat, 0 < c.magnitudeMax → u % c.magnitudeMax ≤ c.magnitudeMax := fun u hd =>
    Nat.le_of_lt (Nat.mod_lt _ hd)
  by_cases h2 : 16 ≤ u2 / c.magnitudeMax
  · rw [if_pos h2]
    split
    · exact Nat.le_refl _
    · exact between_le (hbelow u1) (hpoint (by omega) (by omega)) (hpoint (by omega) (by omega))
  · rw [if_neg h2, if_neg (by omega)]
    rcases Nat.lt_or_eq_of_le hi with hlt | heq
    · calc between _ _ _ _ ≤ c.curve.getD (u2 / c.magnitudeMax) 0 :=
            between_le (hbelow u1) (hpoint (by omega) (by omega)) (hpoint (by omega) (by omega))
        _ ≤ _ := le_between (hpoint (by omega) (by omega)) _ _
    · rw [heq]
      have h1 := Nat.div_add_mod u1 c.magnitudeMax
      have h3 := Nat.div_add_mod u2 c.magnitudeMax
      rw [heq] at h1
      exact between_mono (hpoint (by omega) (by omega)) (by omega) _

/-- Settles O22. -/
theorem magnitudeAndLevelFollowThePressure : Obligations.MagnitudeAndLevelFollowThePressure := by
  refine ⟨fun c e p hdead _ hplow hphigh helow hehigh => ?_, fun c hdead hlength hrange hcurve => ?_⟩
  · have hm := magnitudeOf_mem hdead hplow hphigh
    obtain ⟨hup, hdown, hstay⟩ := smoothingStep_bounds (k := c.smoothing) (d := magnitudeOf c p - e)
    dsimp only
    unfold magnitudeAfter
    generalize magnitudeOf c p = m at *
    refine ⟨hm.1, hm.2, fun h => ?_, fun h => ?_, fun h => ?_, ?_, ?_⟩
    · have := hup (by omega)
      omega
    · have := hdown (by omega)
      omega
    · have := hstay (by omega)
      omega
    · rcases lt_trichotomy (m - e) 0 with hd | hd | hd
      · have := hdown hd
        omega
      · have := hstay hd
        omega
      · have := hup hd
        omega
    · rcases lt_trichotomy (m - e) 0 with hd | hd | hd
      · have := hdown hd
        omega
      · have := hstay hd
        omega
      · have := hup hd
        omega
  · have hmax : c.magnitudeMax = 2047 - c.deadBand := rfl
    have hpos : 0 < c.magnitudeMax := by omega
    refine ⟨?_, ?_, fun e _ _ => levelOf_le hrange e, fun e1 e2 _ h _ => levelOf_mono hlength hcurve h⟩
    · rw [levelOf_eq]
      simp [between]
    · have htop : ((2047 : Int) - c.deadBand).toNat = c.magnitudeMax := by omega
      rw [levelOf_eq, htop, Nat.mul_div_cancel _ hpos]
      rfl

end Sys2Proof.Machine
end

section
/-! PROOFS. What the laws of the timers and of the limits read of a state, and what each operation does to that. -/

namespace Sys2Proof.Machine

/-! ## The bearing of a state -/

/-- What the laws of the timers and of the limits read: the station's state, the timers bound to it, the receive buffer,
and the values the limits are reckoned from. -/
structure Bearing where
  resetLow : Bool
  station : StationState
  faultReason : FaultReason
  joinTimer : Timer
  drainTimer : Timer
  scanTimer : Timer
  scanning : Bool
  phase : BellowsPhase
  role : Bool
  sampleTimer : Timer
  heartbeat : Timer
  table : PerSlot (Option Detected)
  share : PerSlot Nat
  cap : PerSlot (Option Nat)
  limit : PerSlot Nat
  presenceTimer : Timer
  peers : List PeerRecord
  linkRate : Option LinkRate
  listening : Bool
  listenTimer : Timer
  rxBuffer : List RxFrame

/-- The bearing of a state. -/
def State.bearing (s : State) : Bearing where
  resetLow := s.resetLow
  station := s.stc.station
  faultReason := s.stc.faultReason
  joinTimer := s.stc.joinTimer
  drainTimer := s.stc.drainTimer
  scanTimer := s.msc.scanTimer
  scanning := s.msc.scanning
  phase := s.blw.phase
  role := s.blw.settings.role
  sampleTimer := s.blw.sampleTimer
  heartbeat := s.blw.heartbeat
  table := s.ofu.table
  share := s.ofu.share
  cap := s.ofu.cap
  limit := s.ofu.limit
  presenceTimer := s.ptb.presenceTimer
  peers := s.ptb.peers
  linkRate := s.lkc.linkRate
  listening := s.lkc.listening
  listenTimer := s.lkc.listenTimer
  rxBuffer := s.lkc.rxBuffer

/-- The shares and limits are those of the table, the caps and the peers. -/
def Bearing.LimitsCurrent (b : Bearing) : Prop :=
  ∀ k : Slot, b.share.get k = shareOf (b.table.get k) ((PeerTable.mk none b.peers).declaring k) ∧
    b.limit.get k = limitOf (b.share.get k) (b.cap.get k)

theorem State.limitsCurrent_iff {s : State} : s.LimitsCurrent ↔ s.bearing.LimitsCurrent := Iff.rfl

/-- The station works: it is in JOINING, RUN or RELOADING. -/
def StationState.works : StationState → Bool
  | .joining | .run | .reloading => true
  | .loading | .fault => false

theorem State.working_eq (s : State) : s.working = s.stc.station.works := by
  cases h : s.stc.station <;> simp [State.working, StationState.works, h]

/-- The station state, the fault reason and the timers agree, as `State.TimersFitStation` has it. -/
def Bearing.TimersFit (b : Bearing) : Prop :=
  (b.faultReason = .noReason ↔ b.station ≠ .fault) ∧
    (b.joinTimer.running = true ↔ b.station = .joining ∧ b.listening = false) ∧
    (b.drainTimer.running = true ↔ b.station = .reloading) ∧
    (b.listening = true → b.station = .joining ∧ b.linkRate = none ∧ b.listenTimer.running = true) ∧
    (b.scanTimer.running = true ↔ b.station = .run) ∧
    (b.resetLow = true → b.scanning = false) ∧
    (b.phase ≠ .off → (b.station = .joining ∨ b.station = .run) ∧ b.role = true) ∧
    (b.sampleTimer.running = true ↔ b.phase ≠ .off) ∧
    (b.heartbeat.running = true ↔ b.station = .run ∧ b.phase = .measuring) ∧
    (b.presenceTimer.running = true ↔ b.station.works = true ∧ b.listening = false) ∧
    (b.listening = true ∨ b.station = .loading → b.rxBuffer = [])

theorem State.timersFitStation_iff {s : State} : s.TimersFitStation ↔ s.bearing.TimersFit := by
  unfold State.TimersFitStation
  rw [State.working_eq]
  rfl

theorem State.NotesOnly.bearing_eq {s t : State} (h : State.NotesOnly s t) : t.bearing = s.bearing := by
  unfold State.NotesOnly at h
  rw [h]
  rfl

theorem State.DeliveryOnly.bearing_eq {s t : State} (h : State.DeliveryOnly s t) : t.bearing = s.bearing :=
  State.NotesOnly.bearing_eq (s := { s with
    msc := { s.msc with shiftCount := t.msc.shiftCount }
    grf := { s.grf with registration := t.grf.registration } }) h

/-! ## Operations that keep the bearing -/

namespace State

theorem setGroup_bearing (s : State) (d : Direction) (level : Nat) : (s.setGroup d level).bearing = s.bearing :=
  (setGroup_notesOnly s d level).bearing_eq

theorem handBellows_bearing (s : State) : s.handBellows.bearing = s.bearing := by
  rcases handBellows_cases s with ⟨-, h⟩ | ⟨-, h⟩ <;> rw [h]
  exact setGroup_bearing s _ _

theorem sourceLost_bearing (s : State) : s.sourceLost.bearing = s.bearing := (sourceLost_notesOnly s).bearing_eq

theorem followReport_bearing (s : State) : s.followReport.bearing = s.bearing := by
  rcases followReport_cases s with ⟨-, h⟩ | ⟨-, ⟨a, -, h⟩ | ⟨-, -, h⟩ | ⟨-, -, h⟩⟩ <;> rw [h]
  · rfl
  · rfl
  · exact sourceLost_bearing _

theorem acceptBellows_bearing (s : State) (d : Direction) (level : Nat) (lost : Bool) :
    (s.acceptBellows d level lost).bearing = s.bearing := by
  unfold acceptBellows
  split
  · exact sourceLost_bearing s
  · exact setGroup_bearing _ _ _

theorem takeBellows_bearing (s : State) (f : RxFrame) : (s.takeBellows f).bearing = s.bearing := by
  unfold takeBellows
  split
  · exact acceptBellows_bearing s _ _ _
  · rfl

theorem takeRegistration_bearing (s : State) (f : RxFrame) : (s.takeRegistration f).bearing = s.bearing := by
  unfold takeRegistration
  split
  · exact (adoptRegistration_notesOnly s _).bearing_eq
  · rfl

theorem recordDrop_bearing (s : State) (o : AttemptOutcome) : (s.recordDrop o).bearing = s.bearing := by
  unfold recordDrop
  split <;> rfl

theorem endTableAttempt_bearing (s : State) (key : TableKey) (a : Attempt) (r : AttemptResult) :
    (s.endTableAttempt key a r).bearing = s.bearing := by
  unfold endTableAttempt
  cases key <;> exact recordDrop_bearing _ _

theorem noteGoneOut_bearing (s : State) (f : NoteFrame) : (s.noteGoneOut f).bearing = s.bearing := by
  have hstart : ∀ tag, (s.startGoneOut tag).bearing = s.bearing := by
    intro tag
    unfold startGoneOut
    split
    · rfl
    · split
      · rfl
      · exact (NotesOnly.queueStop s tag _).bearing_eq
  cases f with
  | start tag | refreshStart tag => exact hstart tag
  | stop tag => exact (NotesOnly.retryWaiting (s.freeEntry tag)).bearing_eq
  | bow =>
    unfold noteGoneOut payOwedBow
    dsimp only
    split <;> rfl

theorem noteNotGoneOut_bearing (s : State) (f : NoteFrame) : (s.noteNotGoneOut f).bearing = s.bearing := by
  cases f with
  | start tag =>
    unfold noteNotGoneOut
    dsimp only
    split
    · rfl
    · split <;> rfl
  | refreshStart tag =>
    unfold noteNotGoneOut
    dsimp only
    split
    · rfl
    · split
      · rfl
      · exact (NotesOnly.queueStop (s.withdrawTag tag) tag _).bearing_eq
  | stop tag => exact (NotesOnly.retryWaiting s).bearing_eq
  | bow =>
    unfold noteNotGoneOut payOwedBow
    dsimp only
    split
    · split <;> rfl
    · rfl

theorem endQueueAttempt_bearing (s : State) (a : Attempt) (r : AttemptResult) :
    (s.endQueueAttempt a r).bearing = s.bearing := by
  unfold endQueueAttempt
  split
  · rfl
  · split
    · split <;> exact noteNotGoneOut_bearing _ _
    · exact (noteGoneOut_bearing _ _).trans (recordDrop_bearing _ _)

theorem idle_bearing (s : State) : s.idle.bearing = s.bearing := by
  rcases s.idle_cases with ⟨-, h⟩ | ⟨a, -, -, -, h⟩ | ⟨-, -, h⟩ <;> rw [h] <;> rfl

/-! ## Operations that change it -/

/-- What writing the PRESENCE entry does (R138, R139, R155). -/
theorem writePresence_eq (s : State) : s.writePresence = { s with
    ptb := { s.ptb with presenceTimer := some (ms 100) }
    lkc := { s.lkc with
      updates := { s.lkc.updates with presence := some ⟨.presence s.grf.ownGroup s.blw.settings.role
        s.grf.registrationMode s.stl.slotUse s.grf.registration s.stc.station s.stc.trouble, 0⟩ }
      tx := s.lkc.tx.map fun a =>
        if a.source = .table .presence then { a with rewritten := true, withdraw := false } else a } } := by
  simp only [writePresence, writeEntry_eq_mark]
  rfl

/-- What writing the BELLOWS entry does (R46, R47, R155). -/
theorem writeBellows_eq (s : State) : s.writeBellows = { s with
    blw := { s.blw with heartbeat := some (ms 20) }
    lkc := { s.lkc with
      updates := { s.lkc.updates with
        bellows := some ⟨.bellows s.grf.ownGroup s.blw.direction s.blw.level s.blw.sensorLost, 0⟩ }
      tx := s.lkc.tx.map fun a =>
        if a.source = .table .bellows then { a with rewritten := true, withdraw := false } else a } } := by
  simp only [writeBellows, writeEntry_eq_mark]
  rfl

theorem writePresence_bearing (s : State) :
    s.writePresence.bearing = { s.bearing with presenceTimer := some (ms 100) } := by
  rw [writePresence_eq]
  rfl

theorem writeBellows_bearing (s : State) : s.writeBellows.bearing = { s.bearing with heartbeat := some (ms 20) } := by
  rw [writeBellows_eq]
  rfl

theorem settleRate_bearing (s : State) (r : LinkRate) : (s.settleRate r).bearing = { s.bearing with
    joinTimer := some (ms 350)
    presenceTimer := some (ms 100)
    linkRate := some r
    listening := false
    listenTimer := none } := by
  unfold settleRate
  simp only [writePresence_eq]
  rfl

theorem bellowsWrites_iff {s : State} : s.bellowsWrites = true ↔ s.stc.station = .run ∧ s.blw.phase = .measuring := by
  simp [bellowsWrites]

/-- The entry to RUN, step by step (R168, R31, R46, R138). -/
theorem enterRun_eq (s : State) : s.enterRun =
    (let u := { s with
       stc := { s.stc with station := .run, joinTimer := none }
       msc := s.msc.start }
     if s.blw.phase = .measuring then u.writePresence.writeBellows else u.writePresence) := by
  unfold enterRun bellowsWrites
  simp only [writePresence_eq]
  cases h : s.blw.phase <;> simp [h]

theorem enterRun_bearing (s : State) : s.enterRun.bearing = { s.bearing with
    station := .run
    joinTimer := none
    scanTimer := some s.msc.scanCode
    scanning := false
    heartbeat := if s.blw.phase = .measuring then some (ms 20) else s.blw.heartbeat
    presenceTimer := some (ms 100) } := by
  rw [enterRun_eq]
  dsimp only
  split
  · rw [writeBellows_bearing, writePresence_bearing]
    rfl
  · rw [writePresence_bearing]
    rfl

/-- Where R46 asks for it the entry is written and the timer loaded; elsewhere nothing happens. -/
theorem writeBellowsAfter_bearing (s : State) (b : BellowsUnit) :
    (s.writeBellowsAfter b).bearing = s.bearing ∨
      (s.stc.station = .run ∧ s.blw.phase = .measuring ∧
        (s.writeBellowsAfter b).bearing = { s.bearing with heartbeat := some (ms 20) }) := by
  unfold writeBellowsAfter
  split
  · rename_i h
    obtain ⟨hrun, hphase⟩ := bellowsWrites_iff.1 (Bool.and_eq_true_iff.1 h).1
    exact .inr ⟨hrun, hphase, writeBellows_bearing s⟩
  · exact .inl rfl

/-- A note of an answered conversion changes no timer. -/
theorem sampled_bearing (s : State) : s.sampled.bearing = s.bearing := by
  unfold sampled
  dsimp only
  split <;> rfl

end State

/-- A count that joins the attempt leaves the timers, and the phase unless it ends zeroing. -/
theorem BellowsUnit.capture_phase (b : BellowsUnit) (count : Int) :
    (b.capture count).sampleTimer = b.sampleTimer ∧ (b.capture count).heartbeat = b.heartbeat ∧
      ((b.capture count).phase = b.phase ∨ (b.capture count).phase = .measuring) := by
  unfold BellowsUnit.capture
  dsimp only
  split
  · exact ⟨rfl, rfl, .inl rfl⟩
  · split
    · exact ⟨rfl, rfl, .inr rfl⟩
    · split
      · exact ⟨rfl, rfl, .inl rfl⟩
      · exact ⟨rfl, rfl, .inr rfl⟩

namespace State

/-- A missed sample changes no timer but, with the sensor lost while it measures in RUN, the heartbeat. -/
theorem missSample_bearing (s : State) : s.missSample.bearing = s.bearing ∨
    (s.stc.station = .run ∧ s.blw.phase = .measuring ∧
      s.missSample.bearing = { s.bearing with heartbeat := some (ms 20) }) := by
  unfold missSample
  dsimp only
  split
  · set u := ((s.setBlw { s.blw with missed := min (s.blw.missed + 1) 8, outstanding := false }).setBlw _).setSensorLost
      true with hu
    have hbearing : u.handBellows.bearing = s.bearing := (handBellows_bearing u).trans rfl
    rcases writeBellowsAfter_bearing u.handBellows s.blw with h | ⟨hrun, hphase, h⟩
    · exact .inl (h.trans hbearing)
    · refine .inr ⟨(congrArg Bearing.station hbearing).symm.trans hrun,
        (congrArg Bearing.phase hbearing).symm.trans hphase, ?_⟩
      rw [h, hbearing]
  · exact .inl rfl

end State

/-! ## The timers -/

namespace Bearing.TimersFit

variable {b : Bearing}

/-- The heartbeat timer may be loaded while the unit measures in RUN. -/
theorem heartbeat (h : b.TimersFit) (hrun : b.station = .run) (hphase : b.phase = .measuring) (n : Nat) :
    { b with heartbeat := some n }.TimersFit := by
  obtain ⟨h1, h2, h3, h4, h5, h6, h7, h8, -, h10, h11⟩ := h
  exact ⟨h1, h2, h3, h4, h5, h6, h7, h8, by simp [hrun, hphase], h10, h11⟩

/-- The presence timer may be loaded while the station works and does not listen. -/
theorem presence (h : b.TimersFit) (hpresence : b.presenceTimer.running = true) (n : Nat) :
    { b with presenceTimer := some n }.TimersFit := by
  obtain ⟨h1, h2, h3, h4, h5, h6, h7, h8, h9, h10, h11⟩ := h
  exact ⟨h1, h2, h3, h4, h5, h6, h7, h8, h9, by simpa [hpresence] using h10, h11⟩

/-- The end of zeroing loads the heartbeat timer in RUN. -/
theorem zeroed (h : b.TimersFit) (hphase : b.phase = .zeroing) :
    { b with phase := .measuring, heartbeat := if b.station = StationState.run then some (ms 20) else b.heartbeat }.TimersFit := by
  obtain ⟨h1, h2, h3, h4, h5, h6, h7, h8, h9, h10, h11⟩ := h
  refine ⟨h1, h2, h3, h4, h5, h6, fun _ => h7 (by simp [hphase]), by simpa [hphase] using h8, ?_, h10, h11⟩
  simp only [hphase] at h9
  split <;> simp_all

/-- The rate is settled where the station has not yet loaded its join timer. -/
theorem settled (h : b.TimersFit) (hjoining : b.station = .joining) (n m : Nat) (r : LinkRate) :
    { b with
      joinTimer := some n
      presenceTimer := some m
      linkRate := some r
      listening := false
      listenTimer := none }.TimersFit := by
  obtain ⟨h1, h2, h3, h4, h5, h6, h7, h8, h9, h10, h11⟩ := h
  exact ⟨h1, by simp [hjoining], h3, by simp, h5, h6, h7, h8, h9, by simp [hjoining, StationState.works],
    by simp [hjoining]⟩

/-- The entry to RUN from JOINING. -/
theorem entersRun (h : b.TimersFit) (hjoining : b.station = .joining) (hlistening : b.listening = false) (n m k : Nat) :
    { b with
      station := .run
      joinTimer := none
      scanTimer := some n
      scanning := false
      heartbeat := if b.phase = BellowsPhase.measuring then some m else b.heartbeat
      presenceTimer := some k }.TimersFit := by
  obtain ⟨h1, h2, h3, h4, h5, h6, h7, h8, h9, h10, h11⟩ := h
  refine ⟨by simpa [hjoining] using h1, by simp, by simpa [hjoining] using h3, by simp [hlistening], by simp, by simp,
    fun hphase => ⟨.inr rfl, (h7 hphase).2⟩, h8, ?_, by simp [hlistening, StationState.works], by simp [hlistening]⟩
  split <;> simp_all

/-- FAULT stops every timer of the law. -/
theorem entersFault (h : b.TimersFit) (hlistening : b.listening = false) {reason : FaultReason} (hreason : reason ≠ .noReason) :
    { b with
      station := .fault
      faultReason := reason
      joinTimer := none
      drainTimer := none
      scanTimer := none
      phase := .off
      sampleTimer := none
      heartbeat := none
      presenceTimer := none }.TimersFit := by
  obtain ⟨h1, h2, h3, h4, h5, h6, h7, h8, h9, h10, h11⟩ := h
  exact ⟨by simp [hreason], by simp, by simp, by simp [hlistening], by simp, h6, by simp, by simp, by simp,
    by simp [StationState.works], by simp [hlistening]⟩

/-- RELOADING stops the scan and join timers and the unit, and loads the presence and drain timers. -/
theorem entersReloading (h : b.TimersFit) (hlistening : b.listening = false) (n m : Nat)
    (hreason : b.faultReason = .noReason) :
    { b with
      station := .reloading
      joinTimer := none
      drainTimer := some n
      scanTimer := none
      phase := .off
      sampleTimer := none
      heartbeat := none
      presenceTimer := some m }.TimersFit := by
  obtain ⟨h1, h2, h3, h4, h5, h6, h7, h8, h9, h10, h11⟩ := h
  exact ⟨by simp [hreason], by simp, by simp, by simp [hlistening], by simp, h6, by simp, by simp, by simp,
    by simp [StationState.works, hlistening], by simp [hlistening]⟩

end Bearing.TimersFit

end Sys2Proof.Machine
end

section
/-! PROOFS. The timers in agreement with the station state, command by command. -/

namespace Sys2Proof.Machine

namespace Bearing.TimersFit

variable {b : Bearing}

/-- LOADING begins with every timer of the law stopped. -/
theorem entersLoading (h : b.TimersFit) (r : Option LinkRate) :
    { State.reset.bearing with resetLow := b.resetLow, scanning := b.scanning, linkRate := r }.TimersFit := by
  obtain ⟨-, -, -, -, -, h6, -⟩ := h
  obtain ⟨g1, g2, g3, g4, g5, -, g7⟩ := State.timersFitStation_iff.1 State.timersFitStation_reset
  exact ⟨g1, g2, g3, by simp [State.bearing, State.reset, LinkController.reset], g5, h6, g7⟩

/-- A frame may leave or enter the receive buffer once the rate is settled. -/
theorem receives (h : b.TimersFit) (hlistening : b.listening = false) (hstation : b.station ≠ .loading)
    (l : List RxFrame) : { b with rxBuffer := l }.TimersFit := by
  obtain ⟨h1, h2, h3, h4, h5, h6, h7, h8, h9, h10, -⟩ := h
  exact ⟨h1, h2, h3, h4, h5, h6, h7, h8, h9, h10, by simp [hlistening, hstation]⟩

/-- A frame waits only once the rate is settled. -/
theorem settled_of_waiting (h : b.TimersFit) (hbuffer : b.rxBuffer ≠ []) : b.listening = false ∧ b.station ≠ .loading := by
  obtain ⟨-, -, -, -, -, -, -, -, -, -, h11⟩ := h
  refine ⟨?_, fun hloading => hbuffer (h11 (.inr hloading))⟩
  cases hlistening : b.listening with
  | false => rfl
  | true => exact absurd (h11 (.inl hlistening)) hbuffer

/-- Out of LOADING, with the unit zeroing at a bellows-role station, all fits but what the rate decides. -/
def Joins (b : Bearing) : Prop :=
  ∀ (r : LinkRate) (n m : Nat),
    { b with
      joinTimer := some n
      presenceTimer := some m
      linkRate := some r
      listening := false
      listenTimer := none }.TimersFit ∧
    (b.linkRate = none → { b with listening := true, listenTimer := some n }.TimersFit)

theorem joins (h : b.TimersFit) (hloading : b.station = .loading) (role : Bool) (n : Nat)
    (table : PerSlot (Option Detected)) (share limit : PerSlot Nat) :
    Joins { b with
      station := .joining
      role := role
      phase := if role then .zeroing else b.phase
      sampleTimer := if role then some n else b.sampleTimer
      table := table
      share := share
      limit := limit } := by
  obtain ⟨h1, h2, h3, h4, h5, h6, h7, h8, h9, h10, h11⟩ := h
  have hoff : b.phase = .off := by
    by_contra hphase
    rcases (h7 hphase).1 with h | h <;> exact absurd (hloading.symm.trans h) (by decide)
  have hsample : b.sampleTimer.running = false := by simpa [hoff] using h8
  intro r n m
  cases role <;> simp_all [Bearing.TimersFit, StationState.works]

theorem listening_eq_false (h : b.TimersFit) (hstation : b.station ≠ .joining) : b.listening = false := by
  obtain ⟨-, -, -, h4, -⟩ := h
  cases hlistening : b.listening with
  | false => rfl
  | true => exact absurd (h4 hlistening).1 hstation

theorem faultReason_eq (h : b.TimersFit) (hstation : b.station ≠ .fault) : b.faultReason = .noReason := h.1.2 hstation

end Bearing.TimersFit

/-! ## What the remaining operations do to the bearing -/

namespace State

theorem startLoading_bearing (s : State) : s.startLoading.bearing = { State.reset.bearing with
    resetLow := s.bearing.resetLow
    scanning := s.bearing.scanning
    linkRate := s.bearing.linkRate } := rfl

theorem enterFault_bearing (s : State) (reason : FaultReason) : (s.enterFault reason).bearing = { s.bearing with
    station := .fault
    faultReason := reason
    joinTimer := none
    drainTimer := none
    scanTimer := none
    phase := .off
    sampleTimer := none
    heartbeat := none
    presenceTimer := none } := rfl

/-- What the decision of the source mode does (R105, R110, R34). -/
theorem startJoining_eq (s : State) : s.startJoining =
    if s.blw.settings.role = true then { s with
      stc := { s.stc with station := .joining }
      grf := { s.grf with sourceMode := .localUnit }
      blw := s.blw.startZeroing }
    else { s with
      stc := { s.stc with station := .joining, trouble := { s.stc.trouble with bellowsLost := true } }
      grf := { s.grf with sourceMode := .follow } } := rfl

theorem startJoining_bearing (s : State) : s.startJoining.bearing = { s.bearing with
    station := .joining
    phase := if s.blw.settings.role then .zeroing else s.blw.phase
    sampleTimer := if s.blw.settings.role then some (ms s.blw.settings.samplePeriod) else s.blw.sampleTimer } := by
  rw [startJoining_eq]
  split <;> rfl

theorem finishLoading_bearing (s : State) (img : List Byte) : ∃ table share limit,
    ((s.writeRecord img).finishLoading img).bearing = { s.bearing with
      role := (bellowsSettingsOf img).role
      table := table
      share := share
      limit := limit } :=
  ⟨_, _, _, (NotesOnly.recomputeLevels _).bearing_eq⟩

/-- `t` differs from `s`, of what the bearing holds, only in the limits and what they are reckoned from. -/
def LimitsMove (s t : State) : Prop :=
  t.bearing = { s.bearing with
    table := t.bearing.table
    share := t.bearing.share
    cap := t.bearing.cap
    limit := t.bearing.limit
    peers := t.bearing.peers }

namespace LimitsMove

theorem of_eq {s t : State} (h : t.bearing = s.bearing) : LimitsMove s t := by
  unfold LimitsMove
  rw [h]

theorem trans {s t u : State} (h : LimitsMove s t) (g : LimitsMove t u) : LimitsMove s u := by
  unfold LimitsMove at *
  rw [g, h]

theorem timersFit {s t : State} (h : LimitsMove s t) (hs : s.bearing.TimersFit) : t.bearing.TimersFit := by
  unfold LimitsMove at h
  rw [h]
  exact hs

theorem recomputeAndTrim (s : State) : LimitsMove s s.recomputeAndTrim := by
  have h : LimitsMove s s.recomputeLimits := rfl
  exact h.trans (of_eq (NotesOnly.trimAll s.recomputeLimits).bearing_eq)

theorem peerReport (s : State) : LimitsMove s s.peerReport :=
  (of_eq (followReport_bearing s)).trans (recomputeAndTrim _)

theorem setPeer (s : State) (a : Nat) (p : PeerRecord) : LimitsMove s (s.setPeer a p) := rfl

theorem peerEvidence (s : State) (f : RxFrame) : LimitsMove s (s.peerEvidence f) := by
  rcases peerEvidence_cases s f with ⟨-, h⟩ | ⟨-, declared, -, h | h⟩ <;> rw [h]
  · exact of_eq rfl
  · exact setPeer s _ _
  · exact (setPeer s _ _).trans (peerReport _)

theorem heard (s : State) (f : RxFrame) : LimitsMove s (s.heard f) := by
  unfold State.heard
  split
  · exact (peerEvidence s f).trans (of_eq rfl)
  · exact peerEvidence s f

theorem takeOffer (s : State) (f : RxFrame) : LimitsMove s (s.takeOffer f) := by
  have hadopt : ∀ (u : State) offers, LimitsMove u (u.adoptOffers offers) := fun u offers =>
    (show LimitsMove u (u.setOfu { u.ofu with table := tableOf offers, cap := .all none, assembly := none }) from rfl).trans
      (recomputeAndTrim _)
  have hstore : ∀ x, LimitsMove s (s.setOfu { s.ofu with assembly := x }) := fun x => of_eq rfl
  unfold State.takeOffer
  split
  · dsimp only
    split
    · split
      · exact (hstore _).trans (hadopt _ _)
      · exact hstore _
    · exact hstore _
  · exact of_eq rfl

theorem takeAlert (s : State) (f : RxFrame) : LimitsMove s (s.takeAlert f) := by
  have hcap : ∀ x, LimitsMove s (s.setOfu { s.ofu with cap := x }).countExhaustion := fun x => rfl
  have hexhausted : LimitsMove s (if f.alertFlag 0 then s.takeExhausted (f.byte 1) else s) := by
    split
    · exact (hcap _).trans (recomputeAndTrim _)
    · exact of_eq rfl
  have hrestarted : ∀ u : State, LimitsMove u (if f.alertFlag 1 then u.takeRestarted else u) := by
    intro u
    split
    · exact of_eq ((NotesOnly.refresh u).trans (NotesOnly.restartLevels _)).bearing_eq
    · exact of_eq rfl
  unfold State.takeAlert
  split
  · dsimp only
    split
    · exact (hexhausted.trans (hrestarted _)).trans (of_eq (NotesOnly.panic _).bearing_eq)
    · exact hexhausted.trans (hrestarted _)
  · exact of_eq rfl

end LimitsMove

/-- What a reload begins with, before the drain is tested (R173). -/
def reloadBegun (s : State) : State :=
  let s1 := { s with
    stc := { s.stc with station := .reloading, joinTimer := none }
    msc := s.msc.stop
    blw := s.blw.stop }
  let s2 := (s1.panic.writeStatus .ack).writePresence
  s2.setStc { s2.stc with drainTimer := some (ms 100) }

theorem enterReloading_eq (s : State) : s.enterReloading = s.reloadBegun.testDrain := rfl

theorem reloadBegun_bearing (s : State) : s.reloadBegun.bearing = { s.bearing with
    station := .reloading
    joinTimer := none
    drainTimer := some (ms 100)
    scanTimer := none
    phase := .off
    sampleTimer := none
    heartbeat := none
    presenceTimer := some (ms 100) } := by
  set s1 : State := { s with
    stc := { s.stc with station := .reloading, joinTimer := none }
    msc := s.msc.stop
    blw := s.blw.stop } with hs1
  have hpanic : (s1.panic.writeStatus .ack).bearing = s1.bearing :=
    ((NotesOnly.panic s1).trans (NotesOnly.writeEntry _ _ _)).bearing_eq
  have hpresence := writePresence_bearing (s1.panic.writeStatus .ack)
  rw [hpanic] at hpresence
  have hdrain : s.reloadBegun.bearing =
      { (s1.panic.writeStatus .ack).writePresence.bearing with drainTimer := some (ms 100) } := rfl
  rw [hdrain, hpresence]
  rfl

theorem testDrain_cases (s : State) :
    s.testDrain = s ∨ (s.stc.station = .reloading ∧ s.testDrain = s.startLoading) := by
  unfold testDrain
  split
  · rename_i h
    exact .inr ⟨h.1, rfl⟩
  · exact .inl rfl

end State

/-! ## The commands -/

/-- An operation with the bearing of `s` fits the station where `s` does. -/
theorem Bearing.TimersFit.of_eq {s t : State} (hs : s.bearing.TimersFit) (h : t.bearing = s.bearing) :
    t.bearing.TimersFit := by
  rwa [h]

namespace State

variable {s : State}

theorem testDrain_timersFit (hs : s.bearing.TimersFit) : s.testDrain.bearing.TimersFit := by
  rcases testDrain_cases s with h | ⟨-, h⟩ <;> rw [h]
  · exact hs
  · exact hs.entersLoading _

theorem enterReloading_timersFit (hs : s.bearing.TimersFit) (hlistening : s.lkc.listening = false)
    (hworking : s.working = true) : s.enterReloading.bearing.TimersFit := by
  rw [enterReloading_eq]
  refine testDrain_timersFit ?_
  rw [reloadBegun_bearing]
  refine hs.entersReloading hlistening _ _ (hs.faultReason_eq fun hfault => ?_)
  rw [working_eq, show s.stc.station = .fault from hfault] at hworking
  cases hworking

/-- A good record leads to JOINING: with a rate in use or a fixed code the rate is settled, and else the station listens. -/
theorem readRecord_timersFit (hs : s.bearing.TimersFit) (hloading : s.stc.station = .loading) (img : List Byte) :
    (s.readRecord img).bearing.TimersFit := by
  have hlistening : s.lkc.listening = false := hs.listening_eq_false (by simp [State.bearing, hloading])
  unfold readRecord
  split
  · obtain ⟨table, share, limit, hbearing⟩ := finishLoading_bearing s img
    generalize (s.writeRecord img).finishLoading img = u at hbearing
    have hrole : u.blw.settings.role = (bellowsSettingsOf img).role := congrArg Bearing.role hbearing
    have hjoined := hs.joins hloading (bellowsSettingsOf img).role (ms u.blw.settings.samplePeriod) table share limit
    have hstart : Bearing.TimersFit.Joins u.startJoining.bearing := by
      rw [startJoining_bearing, hrole, show u.blw.phase = s.blw.phase from congrArg Bearing.phase hbearing,
        show u.blw.sampleTimer = s.blw.sampleTimer from congrArg Bearing.sampleTimer hbearing, hbearing]
      exact hjoined
    unfold enterJoining
    dsimp only
    split
    · rw [settleRate_bearing]
      exact (hstart _ _ _).1
    · rw [settleRate_bearing]
      exact (hstart _ _ _).1
    · rename_i hrate _
      refine (hstart .kbit250 (ms 300) 0).2 ?_
      rw [startJoining_bearing]
      exact hrate
  · exact hs.entersFault hlistening FaultReason.noConfusion

theorem settleRate_timersFit (hs : s.bearing.TimersFit) (hjoining : s.stc.station = .joining) (r : LinkRate) :
    (s.settleRate r).bearing.TimersFit := by
  rw [settleRate_bearing]
  exact hs.settled hjoining _ _ r

theorem writeBellowsAfter_timersFit (hs : s.bearing.TimersFit) (b : BellowsUnit) :
    (s.writeBellowsAfter b).bearing.TimersFit := by
  rcases writeBellowsAfter_bearing s b with h | ⟨hrun, hphase, h⟩ <;> rw [h]
  · exact hs
  · exact hs.heartbeat hrun hphase _

theorem missSample_timersFit (hs : s.bearing.TimersFit) : s.missSample.bearing.TimersFit := by
  rcases missSample_bearing s with h | ⟨hrun, hphase, h⟩ <;> rw [h]
  · exact hs
  · exact hs.heartbeat hrun hphase _

/-- The sample timer of a unit that is not OFF may be loaded. -/
theorem convert_timersFit (hs : s.bearing.TimersFit) (hphase : s.blw.phase ≠ .off) :
    (s.setBlw s.blw.convert).bearing.TimersFit := by
  obtain ⟨h1, h2, h3, h4, h5, h6, h7, -, h9, h10, h11⟩ := hs
  exact ⟨h1, h2, h3, h4, h5, h6, h7, ⟨fun _ => hphase, fun _ => rfl⟩, h9, h10, h11⟩

theorem sampleExpiry_timersFit (hs : s.bearing.TimersFit) : s.sampleExpiry.bearing.TimersFit := by
  unfold sampleExpiry
  split
  · rename_i h
    dsimp only
    split
    · refine convert_timersFit (missSample_timersFit hs) ?_
      rcases missSample_bearing s with g | ⟨-, -, g⟩
      · rw [show s.missSample.blw.phase = s.blw.phase from congrArg Bearing.phase g]
        exact h.1
      · rw [show s.missSample.blw.phase = s.blw.phase from congrArg Bearing.phase g]
        exact h.1
    · exact convert_timersFit hs h.1
  · exact hs

/-- Zeroing ends, or its attempt goes on; in RUN its end writes the BELLOWS entry. -/
theorem takeSample_timersFit (hs : s.bearing.TimersFit) (count : Int) : (s.takeSample count).bearing.TimersFit := by
  rw [takeSample_eq]
  cases hphase : s.blw.phase with
  | off => exact hs
  | measuring =>
    refine writeBellowsAfter_timersFit (hs.of_eq ?_) s.blw
    rw [handBellows_bearing]
    exact (congrArg (fun b => { b with phase := s.sampled.blw.phase }) s.sampled_bearing).trans
      (congrArg (fun p => { s.bearing with phase := p }) s.sampled_phase)
  | zeroing =>
    obtain ⟨htimer, hheartbeat, hcase⟩ := s.sampled.blw.capture_phase count
    have hset : (s.sampled.blw.capture count).settings = s.sampled.blw.settings :=
      (s.sampled.blw.capture_keeps count).1
    have hbearing : (s.sampled.setBlw (s.sampled.blw.capture count)).bearing =
        { s.bearing with phase := (s.sampled.blw.capture count).phase } := by
      rw [← s.sampled_bearing]
      simp only [State.bearing, setBlw_resetLow, setBlw_stc, setBlw_msc, setBlw_blw, setBlw_ofu, setBlw_ptb, setBlw_lkc,
        htimer, hheartbeat, hset]
    dsimp only
    split
    · rename_i hmeasuring
      rw [hmeasuring] at hbearing
      have hhanded := (handBellows_bearing (s.sampled.setBlw (s.sampled.blw.capture count))).trans hbearing
      generalize (s.sampled.setBlw (s.sampled.blw.capture count)).handBellows = u at hhanded
      have hstation : u.stc.station = s.stc.station := congrArg Bearing.station hhanded
      have hmeasures : u.blw.phase = .measuring := congrArg Bearing.phase hhanded
      have hzeroed := hs.zeroed hphase
      unfold writeBellowsAfter bellowsWrites
      rw [hstation, hmeasures, hphase]
      by_cases hrun : s.stc.station = .run
      · rw [if_pos (by simp [hrun]), writeBellows_bearing, hhanded]
        rw [if_pos (show s.bearing.station = .run from hrun)] at hzeroed
        exact hzeroed
      · rw [if_neg (by simp [hrun]), hhanded]
        rwa [if_neg (show ¬ s.bearing.station = .run from hrun)] at hzeroed
    · rename_i hnot
      have hzeroing : (s.sampled.blw.capture count).phase = s.blw.phase :=
        (hcase.resolve_right hnot).trans s.sampled_phase
      rw [hbearing, hzeroing]
      exact hs

theorem joinExpiry_timersFit (hs : s.bearing.TimersFit) : s.joinExpiry.bearing.TimersFit := by
  unfold joinExpiry
  split
  · rename_i h
    rw [enterRun_bearing]
    exact hs.entersRun h.1 (hs.2.1.1 h.2).2 _ _ _
  · exact hs

theorem scanExpiry_timersFit (hs : s.bearing.TimersFit) (hup : s.resetLow = false) (scan : ScanPart) :
    (s.scanExpiry scan).bearing.TimersFit := by
  have hstarted : s.mayScan = true → (s.setMsc s.msc.startScan).bearing.TimersFit := by
    intro hmay
    obtain ⟨hrun, -, -⟩ := mayScan_iff.1 hmay
    obtain ⟨h1, h2, h3, h4, -, -, h7, h8, h9, h10, h11⟩ := hs
    exact ⟨h1, h2, h3, h4, ⟨fun _ => hrun, fun _ => rfl⟩, fun h => absurd (hup.symm.trans h) (by decide), h7, h8, h9,
      h10, h11⟩
  have hfinished : ∀ (u : State) closed, u.resetLow = false → u.bearing.TimersFit →
      (u.finishScan closed).bearing.TimersFit := by
    rintro u closed hlow ⟨h1, h2, h3, h4, h5, -, h⟩
    refine Bearing.TimersFit.of_eq ?_ (DeliveryOnly.bearing_eq (finishScan_only u closed))
    exact ⟨h1, h2, h3, h4, h5, fun _ => rfl, h⟩
  rcases scanExpiry_cases s scan with h | ⟨closed, -, hmay, h⟩ | ⟨-, hmay, h⟩ | ⟨closed, -, -, h⟩ <;> rw [h]
  · exact hs
  · exact hfinished _ closed hup (hstarted hmay)
  · exact hstarted hmay
  · exact hfinished s closed hup hs

theorem endAttempt_timersFit (hs : s.bearing.TimersFit) (r : AttemptResult) : (s.endAttempt r).bearing.TimersFit := by
  rcases endAttempt_cases s r with ⟨-, h⟩ | ⟨a, -, ⟨-, h⟩ | ⟨key, -, h⟩ | ⟨-, h⟩⟩ <;> rw [h]
  · exact hs
  · exact hs
  · exact testDrain_timersFit (hs.of_eq (endTableAttempt_bearing _ key a r))
  · exact testDrain_timersFit (hs.of_eq (endQueueAttempt_bearing _ a r))

/-- A frame judged once the rate is settled. -/
theorem takeValid_timersFit (hs : s.bearing.TimersFit) (hlistening : s.lkc.listening = false)
    (hloading : s.stc.station ≠ .loading) (f : RxFrame) : (s.takeValid f).bearing.TimersFit := by
  unfold takeValid
  split
  · rw [takeOwn_eq]
    exact hs
  · split
    · exact hs.entersFault hlistening FaultReason.noConfusion
    · split
      · exact hs
      · split
        · exact hs
        · exact hs.receives hlistening hloading _

theorem receiveBits_timersFit (hs : s.bearing.TimersFit) (rate : LinkRate) (bits : List Bool) (afterIdle : Bool) :
    (s.receiveBits rate bits afterIdle).bearing.TimersFit := by
  rcases receiveBits_cases s rate bits afterIdle with h | ⟨-, hreceives, r, -, ⟨-, h⟩ | ⟨-, h⟩⟩ <;> rw [h]
  · exact hs
  · exact hs
  · have hworking : s.working = true := (Bool.and_eq_true_iff.1 hreceives).1
    have hstation : s.stc.station ≠ .loading := fun hloading => by simp [State.working, hloading] at hworking
    cases hlistening : s.lkc.listening with
    | true =>
      have hsettled := settleRate_timersFit hs (hs.2.2.2.1 hlistening).1 rate
      refine takeValid_timersFit hsettled (congrArg Bearing.listening (settleRate_bearing s rate)) ?_ r.frame
      rw [show (s.settleRate rate).stc.station = s.stc.station from
        congrArg Bearing.station (settleRate_bearing s rate)]
      exact hstation
    | false => exact takeValid_timersFit hs hlistening hstation r.frame

theorem takeQuery_timersFit (hs : s.bearing.TimersFit) (hlistening : s.lkc.listening = false)
    (hworking : s.working = true) (f : RxFrame) : (s.takeQuery f).bearing.TimersFit := by
  have hstatus : ∀ (u : State) r, (u.writeStatus r).bearing = u.bearing := fun u r =>
    (NotesOnly.writeEntry u _ _).bearing_eq
  unfold takeQuery
  dsimp only
  split
  · split
    · exact hs.of_eq (hstatus s _)
    · exact hs.of_eq ((hstatus _ _).trans (NotesOnly.panic s).bearing_eq)
    · split
      · exact hs.of_eq (hstatus s _)
      · exact enterReloading_timersFit hs hlistening hworking
    · exact hs.of_eq (hstatus s _)
  · exact hs

theorem handOn_timersFit (hs : s.bearing.TimersFit) (hlistening : s.lkc.listening = false) (hworking : s.working = true)
    (f : RxFrame) : (s.handOn f).bearing.TimersFit := by
  have hheard := LimitsMove.heard s f
  have hfit := hheard.timersFit hs
  have hstill : (s.heard f).lkc.listening = false := (congrArg Bearing.listening hheard).trans hlistening
  have hworks : (s.heard f).working = true := (working_of_station (s.heard_station f)).trans hworking
  rw [handOn_eq]
  split
  · split
    · exact hfit.of_eq (takeBellows_bearing _ f)
    · exact hfit
  · split
    · split
      · exact hfit.of_eq (takeRegistration_bearing _ f)
      · exact hfit
    · split
      · exact (LimitsMove.takeOffer _ f).timersFit hfit
      · split
        · exact (LimitsMove.takeAlert _ f).timersFit hfit
        · split
          · exact takeQuery_timersFit hfit hstill hworks f
          · exact hfit

theorem deliver_timersFit (hs : s.bearing.TimersFit) (p : RxFrame → Bool) : (s.deliver p).bearing.TimersFit := by
  unfold deliver
  split
  · rename_i hworking
    split
    · exact hs
    · rename_i f rest hbuffer
      obtain ⟨hlistening, hloading⟩ := hs.settled_of_waiting (by simp [State.bearing, hbuffer])
      split
      · have hrest : (s.setLkc { s.lkc with rxBuffer := rest }).bearing.TimersFit :=
          hs.receives hlistening hloading rest
        exact handOn_timersFit hrest hlistening hworking f
      · exact hs
  · exact hs

/-- Every command's meaning keeps the timers in agreement. -/
theorem meaning_timersFit (hs : s.bearing.TimersFit) (hup : s.resetLow = false) (c : Instr) :
    (meaning c s).bearing.TimersFit := by
  cases c with
  | resetPinEvent => exact timersFitStation_iff.1 timersFitStation_reset
  | resetRisingEdge =>
    rw [show meaning .resetRisingEdge s = s from if_neg (by simp [hup])]
    exact hs
  | startRecordHeaderRead b0 b1 b2 b3 =>
    show (s.headerRead b0 b1 b2 b3).bearing.TimersFit
    unfold headerRead readHeader
    split
    · rename_i h
      split
      · exact hs.entersFault (hs.listening_eq_false (by simp [State.bearing, h.1])) FaultReason.noConfusion
      · exact hs
    · exact hs
  | startRecordRead rest =>
    show (s.recordRead rest).bearing.TimersFit
    unfold recordRead
    split
    · rename_i h _
      exact readRecord_timersFit hs h _
    · exact hs
  | listenTimerExpiry =>
    show s.listenExpiry.bearing.TimersFit
    unfold listenExpiry
    split
    · rename_i h
      exact settleRate_timersFit hs h.1 _
    · exact hs
  | joinTimerExpiry => exact joinExpiry_timersFit hs
  | scanTimerExpiry scan => exact scanExpiry_timersFit hs hup scan
  | sampleTimerExpiry => exact sampleExpiry_timersFit hs
  | sensorSample count late =>
    show (s.sensorAnswer count late).bearing.TimersFit
    unfold sensorAnswer
    split
    · exact takeSample_timersFit hs _
    · exact hs
  | heartbeatTimerExpiry =>
    show s.heartbeatExpiry.bearing.TimersFit
    unfold heartbeatExpiry
    split
    · rename_i h
      obtain ⟨hrun, hphase⟩ := bellowsWrites_iff.1 h.1
      rw [writeBellows_bearing]
      exact hs.heartbeat hrun hphase _
    · exact hs
  | staleTimerExpiry =>
    show s.staleExpiry.bearing.TimersFit
    unfold staleExpiry
    split <;> exact hs
  | lostTimerExpiry =>
    show s.lostExpiry.bearing.TimersFit
    unfold lostExpiry
    split
    · exact hs.of_eq (sourceLost_bearing s)
    · exact hs
  | breathTimerExpiry =>
    show s.breathExpiry.bearing.TimersFit
    unfold breathExpiry
    split
    · exact hs.of_eq ((NotesOnly.setPlu s _).trans (NotesOnly.placementEvent _ _)).bearing_eq
    · exact hs
  | staccatoDeadlineExpiry tag =>
    show (s.staccatoExpiry tag).bearing.TimersFit
    unfold staccatoExpiry
    split
    · split
      · exact hs
      · split
        · exact hs.of_eq (NotesOnly.endVictim s tag _).bearing_eq
        · exact hs
    · exact hs
  | presenceTimerExpiry =>
    show s.presenceExpiry.bearing.TimersFit
    unfold presenceExpiry
    split
    · rename_i h
      rw [writePresence_bearing]
      exact hs.presence h.2 _
    · exact hs
  | peerExpiry address =>
    show (s.peerExpiry address).bearing.TimersFit
    unfold peerExpiry
    split
    · exact ((LimitsMove.setPeer s _ _).trans (LimitsMove.peerReport _)).timersFit hs
    · exact hs
  | engineLivenessTimerExpiry =>
    show s.livenessExpiry.bearing.TimersFit
    unfold livenessExpiry
    split <;> exact hs
  | linkDropTimerExpiry =>
    show s.linkDropExpiry.bearing.TimersFit
    unfold linkDropExpiry
    split <;> exact hs
  | drainTimerExpiry =>
    show s.drainExpiry.bearing.TimersFit
    unfold drainExpiry
    split
    · exact hs.entersLoading _
    · exact hs
  | idleMoment => exact hs.of_eq s.idle_bearing
  | attemptEnd read =>
    show (s.attemptEnd read).bearing.TimersFit
    rcases attemptEnd_cases s read with ⟨-, h⟩ | ⟨r, -, h⟩ <;> rw [h]
    · exact hs
    · exact endAttempt_timersFit hs r
  | frameReceived rate bits afterIdle => exact receiveBits_timersFit hs rate bits afterIdle
  | bellowsFrame | registrationFrame | presenceFrame | untakenFrame | engineOfferPart | engineAlertExhausted
  | engineAlertRestarted | engineAlertPanic | queryStatus | queryPanic | queryReload | queryOtherAction
  | engineAlertNoFlag => exact deliver_timersFit hs _

theorem elapse_timersFit (hs : s.bearing.TimersFit) : s.elapse.bearing.TimersFit := by
  unfold elapse
  split
  · exact hs
  · simpa [State.bearing, Bearing.TimersFit] using hs

end State

/-- Settles O58: a command's meaning and the passing of time keep the timers in agreement, and so do the two commands that
act while RESET is low. -/
theorem stepsKeepTimersFittingTheStation : Obligations.StepsKeepTimersFittingTheStation := by
  intro s t hstep hs
  rw [State.timersFitStation_iff] at hs ⊢
  cases hp : s.pending with
  | nil =>
    rw [step_nil s hp] at hstep
    cases hstep
    exact State.elapse_timersFit hs
  | cons c rest =>
    rw [step_cons s c rest hp] at hstep
    rcases exec_cases hstep with ⟨hup, rfl⟩ | ⟨hlow, rfl | rfl | rfl⟩
    · exact State.meaning_timersFit (s := { s with pending := rest }) hs hup c
    · exact hs
    · exact State.timersFitStation_iff.1 State.timersFitStation_reset
    · obtain ⟨h1, h2, h3, h4, h5, -, h⟩ := State.timersFitStation_iff.1 State.timersFitStation_reset
      have hrisen : State.risingEdge { s with pending := rest } =
          { State.reset.startLoading with resetLow := false, pending := rest } := if_pos hlow
      rw [hrisen]
      exact ⟨h1, h2, h3, h4, h5, fun hlow => absurd hlow (by simp [State.bearing]), h⟩

end Sys2Proof.Machine
end

section
/-! PROOFS. The derived values: the shares and limits command by command, and the section levels and the ranges of the
levels move by move. -/

namespace Sys2Proof.Machine

/-! ## The peers that declare a slot -/

/-- As many elements satisfy a predicate where one element is replaced by another that satisfies it as that one did. -/
theorem length_filter_set {α : Type} {p : α → Bool} {l : List α} {i : Nat} {x : α}
    (h : ∀ y, l[i]? = some y → p x = p y) : ((l.set i x).filter p).length = (l.filter p).length := by
  induction l generalizing i with
  | nil => rfl
  | cons a l ih =>
    cases i with
    | zero =>
      have ha := h a rfl
      simp only [List.set_cons_zero, List.filter_cons, ha]
      split <;> rfl
    | succ i =>
      have hl := ih (i := i) fun y hy => h y hy
      simp only [List.set_cons_succ, List.filter_cons]
      split <;> simp [hl]

theorem PeerTable.peer_of_getElem? {p : PeerTable} {a : Nat} (ha : 1 ≤ a) {r : PeerRecord}
    (h : p.peers[a - 1]? = some r) : p.peer a = r := by
  unfold PeerTable.peer
  rw [if_neg (by omega), List.getD_eq_getElem?_getD, h]
  rfl

/-- Limits current before a record's change are current after it where the record declares the same slots. -/
theorem State.LimitsCurrent.setPeer {s : State} (hs : s.LimitsCurrent) {a : Nat} (ha : 1 ≤ a) {r : PeerRecord}
    (h : ∀ k, r.declares k = (s.ptb.peer a).declares k) : (s.setPeer a r).LimitsCurrent := by
  intro k
  have hdeclaring : (s.setPeer a r).ptb.declaring k = s.ptb.declaring k := by
    rw [PeerTable.declaring_eq, PeerTable.declaring_eq]
    refine congrArg _ (length_filter_set fun y hy => ?_)
    rw [h k, PeerTable.peer_of_getElem? ha hy]
  rw [hdeclaring]
  exact hs k

/-! ## The evidence of a peer -/

/-- What is known of a frame's sender once the frame is heard: what it declares, and else what was known of a LIVE peer
(R141, R142). -/
def State.knownAfter (s : State) (f : RxFrame) : Option Declaration :=
  match f.declaration with
  | some d => some d
  | none => if (s.ptb.peer f.sender).live then (s.ptb.peer f.sender).declared else none

/-- A frame's evidence renews the expiry of a LIVE peer of which it tells nothing new, and is reported otherwise. -/
theorem State.peerEvidence_eq (s : State) (f : RxFrame) : s.peerEvidence f =
    if s.isPeerAddress f.sender = true then
      if (s.ptb.peer f.sender).live = true ∧ (s.ptb.peer f.sender).declared = s.knownAfter f then
        s.setPeer f.sender ⟨true, some (ms 350), s.knownAfter f⟩
      else (s.setPeer f.sender ⟨true, some (ms 350), s.knownAfter f⟩).peerReport
    else s := by
  unfold State.peerEvidence State.knownAfter
  dsimp only
  cases hlive : (s.ptb.peer f.sender).live <;> cases hdeclaration : f.declaration <;> simp

/-! ## The limits -/

theorem State.LimitsCurrent.of_bearing {s t : State} (h : t.bearing = s.bearing) (hs : s.LimitsCurrent) :
    t.LimitsCurrent := by
  rw [State.limitsCurrent_iff, h]
  exact hs

namespace State.LimitsCurrent

variable {s : State}

theorem settleRate (hs : s.LimitsCurrent) (r : LinkRate) : (s.settleRate r).LimitsCurrent := by
  rw [limitsCurrent_iff, settleRate_bearing]
  exact hs

theorem writeBellowsAfter (hs : s.LimitsCurrent) (b : BellowsUnit) : (s.writeBellowsAfter b).LimitsCurrent := by
  rw [limitsCurrent_iff]
  rcases writeBellowsAfter_bearing s b with h | ⟨-, -, h⟩ <;> rw [h] <;> exact hs

theorem handBellows (hs : s.LimitsCurrent) : s.handBellows.LimitsCurrent := State.LimitsCurrent.of_bearing s.handBellows_bearing hs

theorem startLoading (s : State) : s.startLoading.LimitsCurrent :=
  State.limitsCurrent_reset

theorem testDrain (hs : s.LimitsCurrent) : s.testDrain.LimitsCurrent := by
  rcases testDrain_cases s with h | ⟨-, h⟩ <;> rw [h]
  · exact hs
  · exact startLoading s

theorem readRecord (hs : s.LimitsCurrent) (img : List Byte) : (s.readRecord img).LimitsCurrent := by
  have hfinished : ((s.writeRecord img).finishLoading img).LimitsCurrent :=
    State.LimitsCurrent.of_notesOnly (NotesOnly.recomputeLevels _) (recomputeLimits_current _)
  unfold State.readRecord
  split
  · generalize (s.writeRecord img).finishLoading img = u at hfinished
    have hstart : u.startJoining.LimitsCurrent := by
      rw [limitsCurrent_iff, startJoining_bearing]
      exact hfinished
    unfold State.enterJoining
    dsimp only
    split
    · exact hstart.settleRate _
    · exact hstart.settleRate _
    · exact hstart
  · exact hs

theorem sampled (hs : s.LimitsCurrent) : s.sampled.LimitsCurrent := State.LimitsCurrent.of_bearing s.sampled_bearing hs

theorem takeSample (hs : s.LimitsCurrent) (count : Int) : (s.takeSample count).LimitsCurrent := by
  have hset : ∀ b, (s.sampled.setBlw b).LimitsCurrent := fun b => hs.sampled
  rw [takeSample_eq]
  split
  · exact hs
  · split
    · exact (hset _).handBellows.writeBellowsAfter _
    · exact hset _
  · exact (hset _).handBellows.writeBellowsAfter _

theorem sampleExpiry (hs : s.LimitsCurrent) : s.sampleExpiry.LimitsCurrent := by
  have hmiss : s.missSample.LimitsCurrent := by
    rw [limitsCurrent_iff]
    rcases missSample_bearing s with h | ⟨-, -, h⟩ <;> rw [h] <;> exact hs
  unfold State.sampleExpiry
  split
  · dsimp only
    split
    · exact hmiss
    · exact hs
  · exact hs

theorem scanExpiry (hs : s.LimitsCurrent) (scan : ScanPart) : (s.scanExpiry scan).LimitsCurrent := by
  have hfinished : ∀ (u : State) closed, u.LimitsCurrent → (u.finishScan closed).LimitsCurrent := fun u closed hu =>
    State.LimitsCurrent.of_bearing (DeliveryOnly.bearing_eq (finishScan_only u closed)) hu
  rcases scanExpiry_cases s scan with h | ⟨closed, -, -, h⟩ | ⟨-, -, h⟩ | ⟨closed, -, -, h⟩ <;> rw [h]
  · exact hs
  · exact hfinished _ closed hs
  · exact hs
  · exact hfinished s closed hs

theorem attemptEnd (hs : s.LimitsCurrent) (read : List Bool) : (s.attemptEnd read).LimitsCurrent := by
  rcases attemptEnd_cases s read with ⟨-, h⟩ | ⟨r, -, h⟩ <;> rw [h]
  · exact hs
  · rcases endAttempt_cases s r with ⟨-, h⟩ | ⟨a, -, ⟨-, h⟩ | ⟨key, -, h⟩ | ⟨-, h⟩⟩ <;> rw [h]
    · exact hs
    · exact hs
    · exact testDrain (.of_bearing (endTableAttempt_bearing _ key a r) hs)
    · exact testDrain (.of_bearing (endQueueAttempt_bearing _ a r) hs)

theorem receiveBits (hs : s.LimitsCurrent) (rate : LinkRate) (bits : List Bool) (afterIdle : Bool) :
    (s.receiveBits rate bits afterIdle).LimitsCurrent := by
  have hvalid : ∀ (u : State) f, u.LimitsCurrent → (u.takeValid f).LimitsCurrent := by
    intro u f hu
    unfold State.takeValid
    split
    · rw [takeOwn_eq]
      exact hu
    · split
      · exact hu
      · split
        · exact hu
        · split <;> exact hu
  rcases receiveBits_cases s rate bits afterIdle with h | ⟨-, -, r, -, ⟨-, h⟩ | ⟨-, h⟩⟩ <;> rw [h]
  · exact hs
  · exact hs
  · refine hvalid _ _ ?_
    split
    · exact hs.settleRate rate
    · exact hs

/-! ## Deliveries -/

theorem peerReport (s : State) : s.peerReport.LimitsCurrent := (recomputeAndTrim_spec _).1

theorem peerEvidence (hs : s.LimitsCurrent) (f : RxFrame) : (s.peerEvidence f).LimitsCurrent := by
  rw [peerEvidence_eq]
  split
  · rename_i hpeer
    have ha : 1 ≤ f.sender := by
      simp only [isPeerAddress, Bool.and_eq_true, decide_eq_true_eq] at hpeer
      exact hpeer.1.1
    split
    · rename_i hsame
      obtain ⟨hlive, hknown⟩ := hsame
      refine hs.setPeer ha fun k => ?_
      simp only [PeerRecord.declares, hlive, hknown]
    · exact peerReport _
  · exact hs

theorem heard (hs : s.LimitsCurrent) (f : RxFrame) : (s.heard f).LimitsCurrent := by
  unfold State.heard
  split
  · exact hs.peerEvidence f
  · exact hs.peerEvidence f

theorem takeOffer (hs : s.LimitsCurrent) (f : RxFrame) : (s.takeOffer f).LimitsCurrent := by
  unfold State.takeOffer
  split
  · dsimp only
    split
    · split
      · exact (recomputeAndTrim_spec _).1
      · exact hs
    · exact hs
  · exact hs

theorem takeAlert (hs : s.LimitsCurrent) (f : RxFrame) : (s.takeAlert f).LimitsCurrent := by
  have hexhausted : (if f.alertFlag 0 then s.takeExhausted (f.byte 1) else s).LimitsCurrent := by
    split
    · exact (recomputeAndTrim_spec _).1
    · exact hs
  have hrestarted : ∀ u : State, u.LimitsCurrent → (if f.alertFlag 1 then u.takeRestarted else u).LimitsCurrent := by
    intro u hu
    split
    · exact State.LimitsCurrent.of_notesOnly ((NotesOnly.refresh u).trans (NotesOnly.restartLevels _)) hu
    · exact hu
  unfold State.takeAlert
  split
  · dsimp only
    split
    · exact State.LimitsCurrent.of_notesOnly (NotesOnly.panic _) (hrestarted _ hexhausted)
    · exact hrestarted _ hexhausted
  · exact hs

theorem takeQuery (hs : s.LimitsCurrent) (f : RxFrame) : (s.takeQuery f).LimitsCurrent := by
  have hstatus : ∀ (u : State) r, u.LimitsCurrent → (u.writeStatus r).LimitsCurrent := fun u r hu =>
    State.LimitsCurrent.of_notesOnly (NotesOnly.writeEntry u _ _) hu
  unfold State.takeQuery
  dsimp only
  split
  · split
    · exact hstatus s _ hs
    · exact hstatus _ _ (State.LimitsCurrent.of_notesOnly (NotesOnly.panic s) hs)
    · split
      · exact hstatus s _ hs
      · rw [enterReloading_eq]
        refine testDrain ?_
        rw [limitsCurrent_iff, reloadBegun_bearing]
        exact hs
    · exact hstatus s _ hs
  · exact hs

theorem handOn (hs : s.LimitsCurrent) (f : RxFrame) : (s.handOn f).LimitsCurrent := by
  have hheard := hs.heard f
  rw [handOn_eq]
  split
  · split
    · exact State.LimitsCurrent.of_bearing (takeBellows_bearing _ f) hheard
    · exact hheard
  · split
    · split
      · exact State.LimitsCurrent.of_bearing (takeRegistration_bearing _ f) hheard
      · exact hheard
    · split
      · exact hheard.takeOffer f
      · split
        · exact hheard.takeAlert f
        · split
          · exact hheard.takeQuery f
          · exact hheard

theorem deliver (hs : s.LimitsCurrent) (p : RxFrame → Bool) : (s.deliver p).LimitsCurrent := by
  unfold State.deliver
  split
  · split
    · exact hs
    · rename_i f rest _
      split
      · exact handOn (s := s.setLkc { s.lkc with rxBuffer := rest }) hs f
      · exact hs
  · exact hs

/-- Every command's meaning keeps the limits current. -/
theorem meaning (hs : s.LimitsCurrent) (hup : s.resetLow = false) (c : Instr) : (meaning c s).LimitsCurrent := by
  cases c with
  | resetPinEvent => exact State.limitsCurrent_reset
  | resetRisingEdge =>
    rw [show Machine.meaning .resetRisingEdge s = s from if_neg (by simp [hup])]
    exact hs
  | startRecordHeaderRead b0 b1 b2 b3 =>
    show (s.headerRead b0 b1 b2 b3).LimitsCurrent
    unfold headerRead readHeader
    split
    · split <;> exact hs
    · exact hs
  | startRecordRead rest =>
    show (s.recordRead rest).LimitsCurrent
    unfold recordRead
    split
    · exact hs.readRecord _
    · exact hs
  | listenTimerExpiry =>
    show s.listenExpiry.LimitsCurrent
    unfold listenExpiry
    split
    · exact hs.settleRate _
    · exact hs
  | joinTimerExpiry =>
    show s.joinExpiry.LimitsCurrent
    unfold joinExpiry
    split
    · rw [limitsCurrent_iff, enterRun_bearing]
      exact hs
    · exact hs
  | scanTimerExpiry scan => exact hs.scanExpiry scan
  | sampleTimerExpiry => exact hs.sampleExpiry
  | sensorSample count late =>
    show (s.sensorAnswer count late).LimitsCurrent
    unfold sensorAnswer
    split
    · exact hs.takeSample _
    · exact hs
  | heartbeatTimerExpiry =>
    show s.heartbeatExpiry.LimitsCurrent
    unfold heartbeatExpiry
    split
    · rw [limitsCurrent_iff, writeBellows_bearing]
      exact hs
    · exact hs
  | staleTimerExpiry =>
    show s.staleExpiry.LimitsCurrent
    unfold staleExpiry
    split <;> exact hs
  | lostTimerExpiry =>
    show s.lostExpiry.LimitsCurrent
    unfold lostExpiry
    split
    · exact State.LimitsCurrent.of_bearing (sourceLost_bearing s) hs
    · exact hs
  | breathTimerExpiry =>
    show s.breathExpiry.LimitsCurrent
    unfold breathExpiry
    split
    · exact State.LimitsCurrent.of_notesOnly ((NotesOnly.setPlu s _).trans (NotesOnly.placementEvent _ _)) hs
    · exact hs
  | staccatoDeadlineExpiry tag =>
    show (s.staccatoExpiry tag).LimitsCurrent
    unfold staccatoExpiry
    split
    · split
      · exact hs
      · split
        · exact State.LimitsCurrent.of_notesOnly (NotesOnly.endVictim s tag _) hs
        · exact hs
    · exact hs
  | presenceTimerExpiry =>
    show s.presenceExpiry.LimitsCurrent
    unfold presenceExpiry
    split
    · rw [limitsCurrent_iff, writePresence_bearing]
      exact hs
    · exact hs
  | peerExpiry address =>
    show (s.peerExpiry address).LimitsCurrent
    unfold peerExpiry
    split
    · exact peerReport _
    · exact hs
  | engineLivenessTimerExpiry =>
    show s.livenessExpiry.LimitsCurrent
    unfold livenessExpiry
    split <;> exact hs
  | linkDropTimerExpiry =>
    show s.linkDropExpiry.LimitsCurrent
    unfold linkDropExpiry
    split <;> exact hs
  | drainTimerExpiry =>
    show s.drainExpiry.LimitsCurrent
    unfold drainExpiry
    split
    · exact startLoading s
    · exact hs
  | idleMoment => exact State.LimitsCurrent.of_bearing s.idle_bearing hs
  | attemptEnd read => exact hs.attemptEnd read
  | frameReceived rate bits afterIdle => exact hs.receiveBits rate bits afterIdle
  | bellowsFrame | registrationFrame | presenceFrame | untakenFrame | engineOfferPart | engineAlertExhausted
  | engineAlertRestarted | engineAlertPanic | queryStatus | queryPanic | queryReload | queryOtherAction
  | engineAlertNoFlag => exact hs.deliver _

theorem elapse (hs : s.LimitsCurrent) : s.elapse.LimitsCurrent := by
  unfold State.elapse
  split
  · exact hs
  · intro k
    have hdeclaring : (PeerTable.mk s.ptb.presenceTimer.tick
        (s.ptb.peers.map fun p => { p with expiry := p.expiry.tick })).declaring k = s.ptb.declaring k := by
      rw [PeerTable.declaring_eq, PeerTable.declaring_eq, List.filter_map, List.length_map]
      rfl
    dsimp only
    rw [hdeclaring]
    exact hs k

end State.LimitsCurrent

/-! ## The section levels -/

theorem State.SectionLevelsCurrent.of_eq {s t : State} (hlevels : t.lvu.sectionLevel = s.lvu.sectionLevel)
    (hlevel : t.grf.level = s.grf.level) (hregistration : t.grf.registration = s.grf.registration) (hmst : t.mst = s.mst)
    (hs : s.SectionLevelsCurrent) : t.SectionLevelsCurrent := by
  unfold State.SectionLevelsCurrent State.sectionLevels at *
  rw [hlevels, hlevel, hregistration, hmst]
  exact hs

theorem State.SectionLevelsCurrent.of_notesOnly {s t : State} (h : State.NotesOnly s t)
    (hlevels : t.lvu.sectionLevel = s.lvu.sectionLevel) (hs : s.SectionLevelsCurrent) : t.SectionLevelsCurrent :=
  .of_eq hlevels (by rw [h.grf_eq]) (by rw [h.grf_eq]) h.mst_eq hs

theorem FineMove.keeps_sectionLevels {s t : State} (h : FineMove s t) (hs : s.SectionLevelsCurrent) :
    t.SectionLevelsCurrent := by
  cases h with
  | report k => exact .of_notesOnly (.reportCount s k) (State.reportCount_lvu s k).2 hs
  | restart k => exact .of_notesOnly (.restartLevel s k) (State.restartLevel_sectionLevel s k) hs
  | count | plu | append | drop | roster | enqueue | filter | replace | hold => exact hs

theorem State.SectionLevelsCurrent.fine {s t : State} (h : FineMoves s t) (hs : s.SectionLevelsCurrent) :
    t.SectionLevelsCurrent := h.keeps (fun _ _ => FineMove.keeps_sectionLevels) hs

theorem State.SectionLevelsCurrent.regrouped {s : State} (hs : s.SectionLevelsCurrent) (d : Direction) (level : Nat) :
    (s.regrouped d level).SectionLevelsCurrent := by
  unfold State.regrouped
  dsimp only
  split
  · exact State.recomputeLevels_current _
  · rename_i h
    refine State.SectionLevelsCurrent.of_eq (s := s) rfl ?_ rfl rfl hs
    simp only [bne_iff_ne, ne_eq, not_not] at h
    exact h.symm

theorem Move.keeps_sectionLevels {s t : State} (h : Move s t) (hs : s.SectionLevelsCurrent) :
    t.SectionLevelsCurrent := by
  cases h with
  | notes hstation h => exact .fine (.of_noteMoves h) hs
  | elapse =>
    unfold State.elapse
    split
    · exact hs
    · exact hs
  | resetPin => exact State.sectionLevelsCurrent_reset
  | risingEdge h =>
    refine .of_eq (s := State.reset) ?_ ?_ ?_ ?_ State.sectionLevelsCurrent_reset <;>
      simp [State.risingEdge, h, State.startLoading, State.reset]
  | loading => exact State.sectionLevelsCurrent_reset
  | record img h => exact State.recomputeLevels_current _
  | join h hengine =>
    refine .of_eq ?_ ?_ ?_ ?_ hs <;> (unfold State.startJoining; dsimp only; split <;> rfl)
  | write key f h => exact .of_notesOnly (.writeEntry s key f) (by rw [State.writeEntry_eq]) hs
  | group d level h => exact hs.regrouped d level
  | registration n => exact State.recomputeLevels_current _
  | limits => exact .fine (.of_noteMoves (.trimAll s.recomputeLimits)) hs
  | idle =>
    rcases s.idle_cases with ⟨-, h⟩ | ⟨a, -, -, -, h⟩ | ⟨-, -, h⟩ <;> rw [h] <;> exact hs
  | tableEnds a key r htx h =>
    have hdrop : (((s.freed r).putEntry key (entryAfter ((s.freed r).lkc.updates.get key) a r)).recordDrop
        (outcomeOf a.failures r)).SectionLevelsCurrent := by
      unfold State.recordDrop
      split <;> exact hs
    unfold State.endTableAttempt
    cases key <;> exact hdrop
  | headEnds a q rest r htx h hq hnotes =>
    have hdrop : (((s.freed r).mapQueue fun _ => rest).recordDrop (outcomeOf a.failures r)).SectionLevelsCurrent := by
      unfold State.recordDrop
      split <;> exact hs
    refine .fine (.of_noteMoves hnotes) ?_
    rcases (s.freed r).headEnded_cases a r q rest with h | h | h <;> rw [h]
    · exact .fine (.frameOut _ _) hdrop
    · exact .fine (.frameBack _ _) hs
    · exact .fine (.frameBack _ _) hs
  | pending | fault | port | rate | timers | station | scanner | unit | sensor | presenceTimer | stale | sourceLost
  | sourceFresh | source | engineLive | engineAbsent | dropEnds | offers | peer | exhaustion | receiveError | receive
  | deliver | ownTaken | endsUnreported => exact hs

/-! ## The ranges of the levels -/

/-- The section levels and the values last sent lie within 0..127 (R95). -/
def LevelUnit.InRange (l : LevelUnit) : Prop :=
  ∀ k : Slot, l.sectionLevel.get k ≤ 127 ∧ l.lastSent.get k ≤ 127

namespace LevelUnit.InRange

theorem sent {l : LevelUnit} (h : l.InRange) (k : Slot) :
    InRange { l with lastSent := l.lastSent.set k (l.sectionLevel.get k) } := by
  intro j
  refine ⟨(h j).1, ?_⟩
  simp only [PerSlot.get_set]
  split
  · exact (h k).1
  · exact (h j).2

theorem writeLevel {s : State} (h : s.lvu.InRange) (k : Slot) : (s.writeLevel k).lvu.InRange := h.sent k

theorem restartLevel {s : State} (h : s.lvu.InRange) (k : Slot) : (s.restartLevel k).lvu.InRange := by
  unfold State.restartLevel
  split
  · exact h.sent k
  · exact h

theorem removeLevel {s : State} (h : s.lvu.InRange) (k : Slot) : (s.removeLevel k).lvu.InRange := by
  unfold State.removeLevel
  split
  · exact h
  · split
    · exact h
    · rw [State.removeEntry_eq]
      exact h

theorem reportCount {s : State} (h : s.lvu.InRange) (k : Slot) : (s.reportCount k).lvu.InRange := by
  unfold State.reportCount State.levelRises
  dsimp only
  split
  · split
    · exact (h.sent k).sent k
    · exact h.sent k
  · split
    · exact removeLevel (s := s.setLvu { s.lvu with slotCount := s.lvu.slotCount.set k (s.nrs.count k) }) h k
    · exact h

theorem recomputeLevels {s : State} (h : s.lvu.InRange) : s.recomputeLevels.lvu.InRange := by
  have hfold : ∀ (l : List Slot) (t : State), t.lvu.InRange → (l.foldl State.examineLevel t).lvu.InRange := by
    intro l
    induction l with
    | nil => exact fun t ht => ht
    | cons k l ih =>
      refine fun t ht => ih _ ?_
      unfold State.examineLevel
      split
      · exact ht.writeLevel k
      · exact ht
  refine hfold slots _ fun k => ⟨?_, (h k).2⟩
  simp only [State.setLvu_lvu, State.sectionLevels, PerSlot.get_ofFn]
  exact sectionLevel_le _ _ _

end LevelUnit.InRange

/-- The law of the levels, with the Level Unit's part by name. -/
theorem State.levelsInRange_iff {s : State} : s.LevelsInRange ↔
    s.grf.level ≤ 127 ∧ s.blw.level ≤ 127 ∧ (∀ c ∈ s.blw.settings.curve, c ≤ 127) ∧ s.lvu.InRange := Iff.rfl

theorem State.LevelsInRange.of_eq {s t : State} (hlevel : t.grf.level = s.grf.level) (hblw : t.blw.level = s.blw.level)
    (hcurve : t.blw.settings.curve = s.blw.settings.curve) (hlvu : t.lvu.InRange) (hs : s.LevelsInRange) :
    t.LevelsInRange := by
  obtain ⟨h1, h2, h3, -⟩ := hs
  exact ⟨hlevel ▸ h1, hblw ▸ h2, hcurve ▸ h3, hlvu⟩

theorem State.LevelsInRange.of_notesOnly {s t : State} (h : State.NotesOnly s t) (hlvu : t.lvu.InRange)
    (hs : s.LevelsInRange) : t.LevelsInRange :=
  .of_eq (by rw [h.grf_eq]) (by rw [h.blw_eq]) (by rw [h.blw_eq]) hlvu hs

theorem FineMove.keeps_levelsInRange {s t : State} (h : FineMove s t) (hs : s.LevelsInRange) : t.LevelsInRange := by
  have hlvu : s.lvu.InRange := hs.2.2.2
  cases h with
  | report k => exact .of_notesOnly (.reportCount s k) (hlvu.reportCount k) hs
  | restart k => exact .of_notesOnly (.restartLevel s k) (hlvu.restartLevel k) hs
  | count | plu | append | drop | roster | enqueue | filter | replace | hold => exact hs

theorem State.LevelsInRange.fine {s t : State} (h : FineMoves s t) (hs : s.LevelsInRange) : t.LevelsInRange :=
  h.keeps (fun _ _ => FineMove.keeps_levelsInRange) hs

/-- The unit that follows keeps its level within the curve's range. -/
theorem State.UnitFollows.level_le {s : State} {b : BellowsUnit} (h : s.UnitFollows b) (hs : s.LevelsInRange) :
    b.level ≤ 127 ∧ ∀ c ∈ b.settings.curve, c ≤ 127 := by
  obtain ⟨hset, -, hlevel⟩ := h
  obtain ⟨-, hblw, hcurve, -⟩ := hs
  refine ⟨?_, hset ▸ hcurve⟩
  rcases hlevel with h | h | ⟨e, h⟩ <;> rw [h]
  · exact hblw
  · exact Nat.zero_le _
  · exact levelOf_le hcurve e

theorem curveOf_le (img : List Byte) : ∀ c ∈ curveOf img, c ≤ 127 := by
  refine (raiseCurve_spec _ 0).2.2.1 127 (Nat.zero_le _) fun c hc => ?_
  obtain ⟨i, -, rfl⟩ := List.mem_map.1 hc
  exact lowBits_seven_le _

theorem Move.keeps_levelsInRange {s t : State} (h : Move s t) (hs : s.LevelsInRange) : t.LevelsInRange := by
  obtain ⟨hgroup, hblw, hcurve, hlvu⟩ := State.levelsInRange_iff.1 hs
  cases h with
  | notes hstation h => exact .fine (.of_noteMoves h) hs
  | elapse =>
    unfold State.elapse
    split
    · exact hs
    · exact hs
  | resetPin => exact State.levelsInRange_reset
  | risingEdge h =>
    have hreset := State.levelsInRange_reset
    simp only [State.risingEdge, h, if_true]
    exact hreset
  | loading => exact State.levelsInRange_reset
  | record img h =>
    have hlvu' : ((s.writeRecord img).finishLoading img).lvu.InRange := .recomputeLevels hlvu
    have hnotes : State.NotesOnly _ ((s.writeRecord img).finishLoading img) := .recomputeLevels _
    refine ⟨?_, ?_, ?_, hlvu'⟩
    · rw [hnotes.grf_eq]
      exact hgroup
    · rw [hnotes.blw_eq]
      exact hblw
    · rw [hnotes.blw_eq]
      exact curveOf_le img
  | join h hengine =>
    refine .of_eq ?_ ?_ ?_ ?_ hs
    · unfold State.startJoining; dsimp only; split <;> rfl
    · unfold State.startJoining; dsimp only; split <;> rfl
    · unfold State.startJoining; dsimp only; split <;> rfl
    · unfold State.startJoining; dsimp only; split <;> exact hlvu
  | write key f h => exact .of_notesOnly (.writeEntry s key f) (by rw [State.writeEntry_eq]; exact hlvu) hs
  | group d level h =>
    have hlevel : level ≤ 127 := by
      rcases h with h | rfl
      · exact h
      · exact hblw
    have hset : (s.setGrf { s.grf with direction := d, level := level }).LevelsInRange := ⟨hlevel, hblw, hcurve, hlvu⟩
    unfold State.regrouped
    dsimp only
    split
    · exact .of_notesOnly (.recomputeLevels _) (.recomputeLevels hlvu) hset
    · exact hset
  | registration n =>
    have hset : (s.setGrf { s.grf with registration := n }).LevelsInRange := hs
    exact .of_notesOnly (.recomputeLevels _) (.recomputeLevels hlvu) hset
  | limits => exact .fine (.of_noteMoves (.trimAll s.recomputeLimits)) hs
  | unit b h hlost => exact ⟨hgroup, (h.level_le hs).1, (h.level_le hs).2, hlvu⟩
  | sensor b h hphase => exact ⟨hgroup, (h.level_le hs).1, (h.level_le hs).2, hlvu⟩
  | idle =>
    rcases s.idle_cases with ⟨-, h⟩ | ⟨a, -, -, -, h⟩ | ⟨-, -, h⟩ <;> rw [h] <;> exact hs
  | tableEnds a key r htx h =>
    have hdrop : (((s.freed r).putEntry key (entryAfter ((s.freed r).lkc.updates.get key) a r)).recordDrop
        (outcomeOf a.failures r)).LevelsInRange := by
      unfold State.recordDrop
      split <;> exact hs
    unfold State.endTableAttempt
    cases key <;> exact hdrop
  | headEnds a q rest r htx h hq hnotes =>
    have hdrop : (((s.freed r).mapQueue fun _ => rest).recordDrop (outcomeOf a.failures r)).LevelsInRange := by
      unfold State.recordDrop
      split <;> exact hs
    refine .fine (.of_noteMoves hnotes) ?_
    rcases (s.freed r).headEnded_cases a r q rest with h | h | h <;> rw [h]
    · exact .fine (.frameOut _ _) hdrop
    · exact .fine (.frameBack _ _) hs
    · exact .fine (.frameBack _ _) hs
  | pending | fault | port | rate | timers | station | scanner | presenceTimer | stale | sourceLost | sourceFresh
  | source | engineLive | engineAbsent | dropEnds | offers | peer | exhaustion | receiveError | receive | deliver
  | ownTaken | endsUnreported => exact hs

/-- Settles O56: the limits command by command, since a change of a peer or of the table and the recomputation that
follows it are one; the levels move by move. -/
theorem stepsKeepDerivedValuesCurrent : Obligations.StepsKeepDerivedValuesCurrent := by
  refine fun s t hstep => ⟨fun hs => ?_, (Moves.step hstep).keeps fun _ _ => Move.keeps_sectionLevels,
    (Moves.step hstep).keeps fun _ _ => Move.keeps_levelsInRange⟩
  cases hp : s.pending with
  | nil =>
    rw [step_nil s hp] at hstep
    cases hstep
    exact hs.elapse
  | cons c rest =>
    rw [step_cons s c rest hp] at hstep
    rcases exec_cases hstep with ⟨hup, rfl⟩ | ⟨hlow, rfl | rfl | rfl⟩
    · exact State.LimitsCurrent.meaning (s := { s with pending := rest }) hs hup c
    · exact hs
    · exact State.limitsCurrent_reset
    · have hreset := State.limitsCurrent_reset
      rw [show State.risingEdge { s with pending := rest } =
        { State.reset.startLoading with resetLow := false, pending := rest } from if_pos hlow]
      exact hreset

end Sys2Proof.Machine
end

section
/-! PROOFS. The Peer Table, the suspension and the trouble set: each move of a step keeps their laws. -/

namespace Sys2Proof.Machine

/-! ## The Peer Table -/

theorem State.PeersLawful.of_eq {s t : State} (hpeers : t.ptb.peers = s.ptb.peers)
    (hown : t.stl.ownAddress = s.stl.ownAddress) (hstation : t.stc.station = .loading → s.stc.station = .loading)
    (hs : s.PeersLawful) : t.PeersLawful := by
  unfold State.PeersLawful PeerTable.peer at *
  rw [hpeers, hown]
  exact ⟨hs.1, hs.2.1, hs.2.2.1, fun h => hs.2.2.2 (hstation h)⟩

theorem State.PeersLawful.of_notesOnly {s t : State} (h : State.NotesOnly s t) (hs : s.PeersLawful) : t.PeersLawful :=
  .of_eq (by rw [h.ptb_eq]) (by rw [h.stl_eq]) (by rw [h.station_eq]; exact id) hs

/-- A record in the table is one of the old or the one put there. -/
theorem PeerTable.peer_set (p : PeerTable) (t : Timer) {a b : Nat} (r : PeerRecord) :
    (PeerTable.mk t (p.peers.set (a - 1) r)).peer b = p.peer b ∨
      ((PeerTable.mk t (p.peers.set (a - 1) r)).peer b = r ∧ b ≠ 0 ∧ b - 1 = a - 1) := by
  unfold PeerTable.peer
  by_cases hb : b = 0
  · exact .inl (by simp [hb])
  · simp only [hb, if_false, List.getD_eq_getElem?_getD, List.getElem?_set]
    split
    · rename_i hab
      split
      · exact .inr ⟨rfl, hb, hab.symm⟩
      · rename_i hlength
        left
        rw [List.getElem?_eq_none (by omega)]
    · exact .inl rfl

theorem State.PeersLawful.setPeer {s : State} (hs : s.PeersLawful) {a : Nat} {p : PeerRecord} (hp : p.Lawful)
    (hworking : s.working = true) (ha : p.live = true → s.isPeerAddress a = true) : (s.setPeer a p).PeersLawful := by
  obtain ⟨hlength, hlawful, hown, -⟩ := hs
  refine ⟨by simpa [State.setPeer] using hlength, fun r hr => ?_, ?_, fun hloading => ?_⟩
  · rcases List.mem_or_eq_of_mem_set hr with hr | rfl
    · exact hlawful r hr
    · exact hp
  · rcases s.ptb.peer_set s.ptb.presenceTimer (a := a) (b := s.stl.ownAddress) p with h | ⟨h, hzero, hindex⟩
    · exact (congrArg PeerRecord.live h).trans hown
    · refine (congrArg PeerRecord.live h).trans ?_
      by_contra hlive
      have hpeer := ha (by simpa using hlive)
      simp only [State.isPeerAddress, Bool.and_eq_true, decide_eq_true_eq, bne_iff_ne] at hpeer
      omega
  · have hstation : s.stc.station = .loading := hloading
    simp [State.working, hstation] at hworking

theorem PeerRecord.Lawful.tick {p : PeerRecord} (h : p.Lawful) : PeerRecord.Lawful { p with expiry := p.expiry.tick } := by
  obtain ⟨h1, h2, h3⟩ := h
  exact ⟨by simpa using h1, h2, h3⟩

theorem State.PeersLawful.elapse {s : State} (hs : s.PeersLawful) : s.elapse.PeersLawful := by
  obtain ⟨hlength, hlawful, hown, hloading⟩ := id hs
  unfold State.elapse
  split
  · exact hs
  · refine ⟨by simpa using hlength, fun p hp => ?_, ?_, fun h p hp => ?_⟩
    · obtain ⟨q, hq, rfl⟩ := List.mem_map.1 hp
      exact (hlawful q hq).tick
    · simp only [PeerTable.peer, List.getD_eq_getElem?_getD, List.getElem?_map] at hown ⊢
      split at hown <;> rename_i hzero
      · rw [if_pos hzero]
        exact hown
      · rw [if_neg hzero]
        cases hget : s.ptb.peers[s.stl.ownAddress - 1]? <;> simp_all
    · obtain ⟨q, hq, rfl⟩ := List.mem_map.1 hp
      exact hloading h q hq

theorem Move.keeps_peers {s t : State} (h : Move s t) (hs : s.PeersLawful) : t.PeersLawful := by
  obtain ⟨hlength, hlawful, hown, hloading⟩ := id hs
  cases h with
  | notes hstation h => exact hs.of_notesOnly h.notesOnly
  | elapse => exact hs.elapse
  | resetPin => exact State.peersLawful_reset
  | risingEdge h =>
    refine State.PeersLawful.of_eq (s := State.reset) ?_ ?_ (fun _ => rfl) State.peersLawful_reset <;>
      simp [State.risingEdge, h, State.startLoading, State.reset]
  | fault reason => exact .of_eq (s := s) rfl rfl (fun h => StationState.noConfusion h) hs
  | loading =>
    refine ⟨rfl, fun p hp => ?_, ?_, fun _ p hp => ?_⟩
    · exact State.peersLawful_reset.2.1 p hp
    · have habsent : ∀ a, PeerTable.reset.peer a = .absent := by
        intro a
        unfold PeerTable.peer
        split
        · rfl
        · rw [List.getD_eq_getElem?_getD, show PeerTable.reset.peers = List.replicate 12 .absent from rfl,
            List.getElem?_replicate]
          split <;> rfl
      exact congrArg PeerRecord.live (habsent _)
    · exact State.peersLawful_reset.2.2.2 rfl p hp
  | record img h =>
    have hptb : ((s.writeRecord img).finishLoading img).ptb = s.ptb := (State.NotesOnly.recomputeLevels _).ptb_eq
    refine ⟨by rw [hptb]; exact hlength, by rw [hptb]; exact hlawful, ?_, fun _ => by rw [hptb]; exact hloading h⟩
    rw [hptb]
    unfold PeerTable.peer
    split
    · rfl
    · rw [List.getD_eq_getElem?_getD]
      cases hget : s.ptb.peers[((s.writeRecord img).finishLoading img).stl.ownAddress - 1]? with
      | none => rfl
      | some p => exact hloading h p (List.mem_of_getElem? hget)
  | join h hengine =>
    rw [State.startJoining_eq]
    split <;> exact .of_eq (s := s) rfl rfl (fun h => StationState.noConfusion h) hs
  | station st hw hst =>
    refine .of_eq (s := s) rfl rfl (fun h => ?_) hs
    rcases hst with rfl | rfl <;> cases h
  | write key f h => exact hs.of_notesOnly (.writeEntry s key f)
  | group d level h =>
    exact State.PeersLawful.of_notesOnly (State.LevelsOnly.regrouped s d level).notesOnly hs
  | registration n => exact State.PeersLawful.of_notesOnly (State.adoptRegistration_notesOnly s n) hs
  | limits => exact State.PeersLawful.of_notesOnly (State.NotesOnly.trimAll s.recomputeLimits) hs
  | peer a p hw hp habsent ha hgroup =>
    refine hs.setPeer ⟨hp, habsent, fun d hd => ?_⟩ hw ha
    rcases hgroup d hd with h | h
    · exact h
    · unfold PeerTable.peer at h
      split at h
      · cases h
      · rw [List.getD_eq_getElem?_getD] at h
        cases hget : s.ptb.peers[a - 1]? with
        | none =>
          rw [hget] at h
          cases h
        | some q =>
          rw [hget] at h
          exact (hlawful q (List.mem_of_getElem? hget)).2.2 d h
  | idle =>
    rcases s.idle_cases with ⟨-, h⟩ | ⟨a, -, -, -, h⟩ | ⟨-, -, h⟩ <;> rw [h] <;> exact hs
  | tableEnds a key r htx h =>
    have hdrop : (((s.freed r).putEntry key (entryAfter ((s.freed r).lkc.updates.get key) a r)).recordDrop
        (outcomeOf a.failures r)).PeersLawful := by
      unfold State.recordDrop
      split <;> exact hs
    unfold State.endTableAttempt
    cases key <;> exact hdrop
  | headEnds a q rest r htx h hq hnotes =>
    refine .of_notesOnly hnotes.notesOnly ?_
    have hdrop : (((s.freed r).mapQueue fun _ => rest).recordDrop (outcomeOf a.failures r)).PeersLawful := by
      unfold State.recordDrop
      split <;> exact hs
    rcases (s.freed r).headEnded_cases a r q rest with h | h | h <;> rw [h]
    · exact State.PeersLawful.of_notesOnly (FineMoves.frameOut _ _).notesOnly hdrop
    · exact State.PeersLawful.of_notesOnly (FineMoves.frameBack ((s.freed r).mapQueue fun _ => rest) _).notesOnly hs
    · exact State.PeersLawful.of_notesOnly (FineMoves.frameBack ((s.freed r).mapQueue fun _ =>
        ⟨q.frame, failuresAfter a.failures r⟩ :: rest) _).notesOnly hs
  | pending | port | rate | timers | scanner | unit | sensor | presenceTimer | stale | sourceLost | sourceFresh | source
  | engineLive | engineAbsent | dropEnds | offers | exhaustion | receiveError | receive | deliver | ownTaken
  | endsUnreported => exact hs

/-! ## The suspension -/

theorem Move.keeps_suspension {s t : State} (h : Move s t) (hs : s.SuspensionLawful) : t.SuspensionLawful := by
  cases h with
  | notes hstation h hsuspension => exact hsuspension hs
  | headEnds a q rest r htx h hq hnotes hnone hsuspension => exact hsuspension hs
  | elapse =>
    unfold State.elapse
    split
    · exact hs
    · exact hs
  | resetPin => exact State.suspensionLawful_reset
  | risingEdge h =>
    refine State.SuspensionLawful.of_waits (s := State.reset) ?_ State.suspensionLawful_reset
    simp only [State.risingEdge, h, if_true]
    rfl
  | loading => exact State.SuspensionLawful.of_waits (s := State.reset) rfl State.suspensionLawful_reset
  | record img h => exact .of_waits (State.LevelsOnly.recomputeLevels _).waits_eq hs
  | join h hengine =>
    rw [State.startJoining_eq]
    split <;> exact hs
  | write key f h => exact hs.of_waits (State.LevelsOnly.writeEntry s key f).waits_eq
  | group d level h => exact State.SuspensionLawful.of_waits (State.LevelsOnly.regrouped s d level).waits_eq hs
  | registration n => exact State.SuspensionLawful.of_waits (State.LevelsOnly.recomputeLevels _).waits_eq hs
  | limits => exact State.SuspensionLawful.of_waits s.recomputeLimits.trimAll_waits hs
  | idle =>
    rcases s.idle_cases with ⟨-, h⟩ | ⟨a, -, -, -, h⟩ | ⟨-, -, h⟩ <;> rw [h] <;> exact hs
  | tableEnds a key r htx h =>
    have hdrop : (((s.freed r).putEntry key (entryAfter ((s.freed r).lkc.updates.get key) a r)).recordDrop
        (outcomeOf a.failures r)).SuspensionLawful := by
      unfold State.recordDrop
      split <;> exact hs
    unfold State.endTableAttempt
    cases key <;> exact hdrop
  | pending | fault | port | rate | timers | station | scanner | unit | sensor | presenceTimer | stale | sourceLost
  | sourceFresh | source | engineLive | engineAbsent | dropEnds | offers | peer | exhaustion | receiveError | receive
  | deliver | ownTaken | endsUnreported => exact hs

/-- Settles O57: each move of a step keeps both laws. -/
theorem stepsKeepPeersAndSuspensionLawful : Obligations.StepsKeepPeersAndSuspensionLawful :=
  fun _ _ hstep => ⟨(Moves.step hstep).keeps fun _ _ => Move.keeps_peers,
    (Moves.step hstep).keeps fun _ _ => Move.keeps_suspension⟩

/-! ## The trouble set -/

/-- Where an attempt in flight comes from. -/
def State.txSource (s : State) : Option TxSource := s.lkc.tx.map (·.source)

/-- In LOADING only an attempt that a reload carries is in flight. -/
theorem State.quietInLoading_iff {s : State} : s.QuietInLoading ↔ (s.stc.station = .loading →
    s.stc.trouble = .empty ∧ s.blw.phase = .off ∧ s.blw.sensorLost = false ∧ s.grf.freshness = .lost ∧
      s.lkc.linkDropTimer = none ∧ ∀ x, s.txSource = some x → x = .carried) := by
  unfold State.QuietInLoading State.txSource
  cases s.lkc.tx <;> simp

theorem State.TroubleTrue.of_eq {s t : State} (hstation : t.stc.station = s.stc.station)
    (htrouble : t.stc.trouble = s.stc.trouble) (hphase : s.blw.phase = .off → t.blw.phase = .off)
    (hlost : t.blw.sensorLost = s.blw.sensorLost) (hmode : t.grf.sourceMode = s.grf.sourceMode)
    (hfresh : t.grf.freshness = s.grf.freshness) (hengine : t.ofu.engine = s.ofu.engine)
    (htimer : t.lkc.linkDropTimer = s.lkc.linkDropTimer) (htx : t.txSource = s.txSource ∨ t.txSource = none)
    (hs : s.TroubleTrue) : t.TroubleTrue := by
  obtain ⟨hquiet, hworks⟩ := hs
  refine ⟨State.quietInLoading_iff.2 fun hloading => ?_, ?_⟩
  · obtain ⟨h1, h2, h3, h4, h5, h6⟩ := State.quietInLoading_iff.1 hquiet (hstation.symm.trans hloading)
    refine ⟨htrouble.trans h1, hphase h2, hlost.trans h3, hfresh.trans h4, htimer.trans h5, fun x hx => ?_⟩
    rcases htx with h | h <;> rw [h] at hx
    · exact h6 x hx
    · cases hx
  · rw [State.working_of_station hstation, htrouble, hlost, hmode, hfresh, hengine, htimer]
    exact hworks

theorem State.TroubleTrue.of_notesOnly {s t : State} (h : State.NotesOnly s t) (htx : t.txSource = s.txSource)
    (hs : s.TroubleTrue) : t.TroubleTrue :=
  .of_eq h.station_eq h.trouble_eq (by rw [h.blw_eq]; exact id) (by rw [h.blw_eq]) (by rw [h.grf_eq]) (by rw [h.grf_eq])
    (by rw [h.ofu_eq]) (by rw [h.lkc_eq]) (.inl htx) hs

theorem State.LevelsOnly.txSource_eq {s t : State} (h : State.LevelsOnly s t) : t.txSource = s.txSource := by
  have hmap := congrArg (Option.map Prod.fst) h.2
  simpa only [State.txSource, Option.map_map, Function.comp_def] using hmap

theorem FineMove.txSource_eq {s t : State} (h : FineMove s t) : t.txSource = s.txSource := by
  cases h with
  | report k => exact (State.LevelsOnly.reportCount s k).txSource_eq
  | restart k => exact (State.LevelsOnly.restartLevel s k).txSource_eq
  | hold b => simp [State.txSource, State.holdWithdrawal, Function.comp_def]
  | count | plu | append | drop | roster | enqueue | filter | replace => rfl

theorem FineMoves.txSource_eq {s t : State} (h : FineMoves s t) : t.txSource = s.txSource := by
  induction h with
  | refl => rfl
  | tail _ hmove ih => exact hmove.txSource_eq.trans ih

theorem State.TroubleTrue.fine {s t : State} (h : FineMoves s t) (hs : s.TroubleTrue) : t.TroubleTrue :=
  .of_notesOnly h.notesOnly h.txSource_eq hs

/-- A drop brings LINK DROP into the trouble set and loads its timer, outside LOADING. -/
theorem State.TroubleTrue.recordDrop {s : State} (hloading : s.stc.station ≠ .loading) (o : AttemptOutcome)
    (hs : s.TroubleTrue) : (s.recordDrop o).TroubleTrue := by
  unfold State.recordDrop
  split
  · refine ⟨fun h => absurd h hloading, fun hworking => ?_⟩
    obtain ⟨h1, h2, h3, -, h5⟩ := hs.2 hworking
    exact ⟨h1, h2, h3, rfl, h5⟩
  · exact hs

theorem State.TroubleTrue.freed {s : State} (r : AttemptResult) (hs : s.TroubleTrue) : (s.freed r).TroubleTrue :=
  .of_eq (s := s) rfl rfl id rfl rfl rfl rfl rfl (.inr rfl) hs

/-- An attempt of a queued frame or of an entry is not one of LOADING. -/
theorem State.TroubleTrue.not_loading {s : State} (hs : s.TroubleTrue) {a : Attempt} (htx : s.lkc.tx = some a)
    (hsource : a.source ≠ .carried) : s.stc.station ≠ .loading := fun hloading =>
  hsource ((hs.1 hloading).2.2.2.2.2 a htx)

theorem State.TroubleTrue.reset : State.reset.TroubleTrue := State.troubleTrue_reset

/-- The entry to JOINING: at a FOLLOW station BELLOWS LOST stands from then on. -/
theorem State.TroubleTrue.startJoining {s : State} (hs : s.TroubleTrue) (hloading : s.stc.station = .loading)
    (hengine : s.ofu.engine = .unheard) : s.startJoining.TroubleTrue := by
  obtain ⟨h1, -, h3, h4, h5, -⟩ := hs.1 hloading
  rw [State.startJoining_eq]
  split
  · refine ⟨fun h => StationState.noConfusion h, fun _ => ?_⟩
    simp [h1, h4, h5, hengine, TroubleSet.empty]
    simp [BellowsUnit.startZeroing, BellowsUnit.convert, h3]
  · refine ⟨fun h => StationState.noConfusion h, fun _ => ?_⟩
    simp [h1, h3, h4, h5, hengine, TroubleSet.empty]

theorem Move.keeps_trouble {s t : State} (h : Move s t) (hs : s.TroubleTrue) : t.TroubleTrue := by
  obtain ⟨hquiet, hworks⟩ := id hs
  cases h with
  | notes hstation h => exact .fine (.of_noteMoves h) hs
  | elapse =>
    unfold State.elapse
    split
    · exact hs
    · refine ⟨fun hloading => ?_, fun hworking => ?_⟩
      · obtain ⟨h1, h2, h3, h4, h5, h6⟩ := hquiet hloading
        exact ⟨h1, h2, h3, h4, by simp [h5], h6⟩
      · obtain ⟨h1, h2, h3, h4, h5⟩ := hworks hworking
        exact ⟨h1, h2, h3, by simpa using h4, h5⟩
  | resetPin => exact State.troubleTrue_reset
  | risingEdge h =>
    refine State.TroubleTrue.of_eq (s := State.reset) ?_ ?_ ?_ ?_ ?_ ?_ ?_ ?_ (.inl ?_) State.troubleTrue_reset <;>
      simp [State.risingEdge, h, State.startLoading, State.reset, StationControl.reset, LinkController.reset,
        State.txSource]
  | fault reason => exact ⟨fun h => StationState.noConfusion h, fun h => Bool.noConfusion h⟩
  | loading =>
    refine ⟨fun _ => ⟨rfl, rfl, rfl, rfl, rfl, fun a ha => ?_⟩, fun h => Bool.noConfusion h⟩
    obtain ⟨b, -, rfl⟩ := Option.map_eq_some_iff.1 ha
    rfl
  | record img h =>
    have hnotes : State.NotesOnly _ ((s.writeRecord img).finishLoading img) := .recomputeLevels _
    have hsource : ((s.writeRecord img).finishLoading img).txSource = s.txSource :=
      (State.LevelsOnly.recomputeLevels _).txSource_eq
    have hstation := (Moves.finishLoading_station s img).trans h
    obtain ⟨h1, h2, h3, h4, h5, h6⟩ := State.quietInLoading_iff.1 hquiet h
    refine ⟨State.quietInLoading_iff.2 fun _ => ⟨?_, ?_, ?_, ?_, ?_, ?_⟩, fun hworking => ?_⟩
    · rw [hnotes.trouble_eq]
      exact h1
    · rw [hnotes.blw_eq]
      exact h2
    · rw [hnotes.blw_eq]
      exact h3
    · rw [hnotes.grf_eq]
      exact h4
    · rw [hnotes.lkc_eq]
      exact h5
    · rw [hsource]
      exact h6
    · rw [State.working, hstation] at hworking
      cases hworking
  | join h hengine => exact hs.startJoining h hengine
  | station st hw hst =>
    refine ⟨fun h => ?_, fun _ => hworks hw⟩
    have hloading : st = .loading := h
    rcases hst with rfl | rfl <;> cases hloading
  | unit b h hlost => exact .of_eq (s := s) rfl rfl h.2.1 hlost rfl rfl rfl rfl (.inl rfl) hs
  | sensor b h hphase =>
    refine ⟨fun hloading => absurd (hquiet hloading).2.1 hphase, fun hworking => ?_⟩
    obtain ⟨-, h⟩ := hworks hworking
    exact ⟨rfl, h⟩
  | write key f h =>
    exact hs.of_notesOnly (.writeEntry s key f) (State.LevelsOnly.writeEntry s key f).txSource_eq
  | group d level h =>
    exact State.TroubleTrue.of_notesOnly (State.LevelsOnly.regrouped s d level).notesOnly
      (State.LevelsOnly.regrouped s d level).txSource_eq hs
  | registration n =>
    exact State.TroubleTrue.of_notesOnly (State.adoptRegistration_notesOnly s n)
      (State.LevelsOnly.recomputeLevels _).txSource_eq hs
  | stale h =>
    refine ⟨fun hloading => ?_, fun hworking => ?_⟩
    · have hfresh := (hquiet hloading).2.2.2.1
      exact absurd (h.symm.trans hfresh) (by decide)
    · obtain ⟨h1, h2, h3, h4, h5⟩ := hworks hworking
      have hbellows : s.stc.trouble.bellowsLost = false := by simpa [h] using h2
      refine ⟨h1, by simp [hbellows], h3, h4, fun hmode => ?_⟩
      exact absurd (h.symm.trans (h5 hmode)) (by decide)
  | sourceLost hw h =>
    refine ⟨fun hloading => ?_, fun _ => ?_⟩
    · have hstation : s.stc.station = .loading := hloading
      simp [State.working, hstation] at hw
    · obtain ⟨h1, h2, h3, h4, h5⟩ := hworks hw
      have hfollow : s.grf.sourceMode = .follow := by
        rcases h with h | h
        · exact h
        · cases hmode : s.grf.sourceMode with
          | follow => rfl
          | localUnit => exact absurd (h5 hmode) h
      exact ⟨h1, by simp [hfollow, State.setBellowsLost], h3, h4, fun _ => rfl⟩
  | sourceFresh hw h =>
    refine ⟨fun hloading => ?_, fun _ => ?_⟩
    · have hstation : s.stc.station = .loading := hloading
      simp [State.working, hstation] at hw
    · obtain ⟨h1, h2, h3, h4, h5⟩ := hworks hw
      exact ⟨h1, by simp [State.setBellowsLost], h3, h4, fun hmode => absurd (h.symm.trans hmode) (by decide)⟩
  | engineLive =>
    refine ⟨fun hloading => ?_, fun hworking => ?_⟩
    · obtain ⟨h1, h⟩ := hquiet hloading
      exact ⟨by simp [State.engineEvidence_eq, h1, TroubleSet.empty], h⟩
    · obtain ⟨h1, h2, -, h4, h5⟩ := hworks hworking
      exact ⟨h1, h2, by simp [State.engineEvidence_eq], h4, h5⟩
  | engineAbsent hw =>
    refine ⟨fun hloading => ?_, fun hworking => ?_⟩
    · have hstation : s.stc.station = .loading := hloading
      simp [State.working, hstation] at hw
    · obtain ⟨h1, h2, -, h4, h5⟩ := hworks hworking
      exact ⟨h1, h2, by simp [State.setEngineAbsent], h4, h5⟩
  | dropEnds =>
    refine ⟨fun hloading => ?_, fun hworking => ?_⟩
    · obtain ⟨h1, h2, h3, h4, -, h6⟩ := hquiet hloading
      exact ⟨by simp [State.setLinkDrop, h1, TroubleSet.empty], h2, h3, h4, rfl, h6⟩
    · obtain ⟨h1, h2, h3, -, h5⟩ := hworks hworking
      exact ⟨h1, h2, h3, rfl, h5⟩
  | offers x hlimit hengine => exact .of_eq (s := s) rfl rfl id rfl rfl rfl hengine rfl (.inl rfl) hs
  | limits => exact .fine (.of_noteMoves (.trimAll s.recomputeLimits)) hs
  | idle =>
    rcases s.idle_cases with ⟨-, h⟩ | ⟨a, -, hmay, -, h⟩ | ⟨-, -, h⟩ <;> rw [h]
    · exact hs
    · have hworking := (State.mayTransmit_iff.1 hmay).1
      refine ⟨fun hloading => ?_, hworks⟩
      have hstation : s.stc.station = .loading := hloading
      simp [State.working, hstation] at hworking
    · exact .of_eq (s := s) rfl rfl id rfl rfl rfl rfl rfl (.inr rfl) hs
  | endsUnreported a r htx h => exact hs.freed r
  | tableEnds a key r htx h =>
    have hput : ((s.freed r).putEntry key (entryAfter ((s.freed r).lkc.updates.get key) a r)).TroubleTrue := hs.freed r
    have hloading : s.stc.station ≠ .loading := hs.not_loading htx (by simp [h])
    have hdrop := State.TroubleTrue.recordDrop
      (s := (s.freed r).putEntry key (entryAfter ((s.freed r).lkc.updates.get key) a r)) hloading
      (outcomeOf a.failures r) hput
    unfold State.endTableAttempt
    cases key <;> exact hdrop
  | headEnds a q rest r htx h hq hnotes =>
    refine .fine (.of_noteMoves hnotes) ?_
    have hrest : ((s.freed r).mapQueue fun _ => rest).TroubleTrue := hs.freed r
    have hloading : s.stc.station ≠ .loading := hs.not_loading htx (by simp [h])
    rcases (s.freed r).headEnded_cases a r q rest with g | g | g <;> rw [g]
    · exact .fine (.frameOut _ _) (.recordDrop (s := (s.freed r).mapQueue fun _ => rest) hloading _ hrest)
    · exact .fine (.frameBack _ _) hrest
    · exact .fine (.frameBack _ _) (s := (s.freed r).mapQueue fun _ => _) (hs.freed r)
  | pending | port | rate | timers | scanner | presenceTimer | source | peer | exhaustion | receiveError | receive
  | deliver | ownTaken => exact hs

/-- Settles O59: each move of a step keeps the trouble set true. -/
theorem stepsKeepTheTroubleSetTrue : Obligations.StepsKeepTheTroubleSetTrue :=
  fun _ _ hstep => (Moves.step hstep).keeps fun _ _ => Move.keeps_trouble

end Sys2Proof.Machine
end

section
/-! PROOFS. The roster stays lawful and no slot holds more than its limit: ending an entry shrinks the roster, a request
adds an entry only where there is room, and a trim ends as many as stand above the limit. -/

namespace Sys2Proof.Machine

/-! ## Rosters that shrink -/

/-- What the roster's laws say of an entry: its tag, its slot and its pitch. -/
def RosterEntry.seat (e : RosterEntry) : Nat × Slot × Nat := (e.tag, e.slot, e.pitch)

namespace NoteRoster

theorem count_eq (n : NoteRoster) (k : Slot) : n.count k = n.roster.countP fun e => e.slot == k && e.active :=
  List.countP_eq_length_filter.symm

theorem lawful_iff {n : NoteRoster} : n.Lawful ↔ (n.roster.map (·.seat)).length ≤ 32 ∧ n.nextTag < 256 ∧
    (∀ x ∈ n.roster.map (·.seat), x.1 < 256) ∧ (n.roster.map (·.seat)).Pairwise fun x y => x.1 ≠ y.1 ∧ x.2 ≠ y.2 := by
  unfold Lawful
  simp only [List.length_map, List.forall_mem_map, List.pairwise_map, RosterEntry.seat, ne_eq, Prod.mk.injEq]

/-- `m` holds some of the entries of `n`, each in its seat, and none that is ENDING in `n` and not in `m`. -/
def Shrinks (n m : NoteRoster) : Prop :=
  m.nextTag = n.nextTag ∧ (m.roster.map (·.seat)).Sublist (n.roster.map (·.seat)) ∧ ∀ k : Slot, m.count k ≤ n.count k

namespace Shrinks

theorem refl (n : NoteRoster) : n.Shrinks n := ⟨rfl, List.Sublist.refl _, fun _ => Nat.le_refl _⟩

theorem trans {n m l : NoteRoster} (h : n.Shrinks m) (g : m.Shrinks l) : n.Shrinks l :=
  ⟨g.1.trans h.1, g.2.1.trans h.2.1, fun k => (g.2.2 k).trans (h.2.2 k)⟩

theorem lawful {n m : NoteRoster} (h : n.Shrinks m) (hn : n.Lawful) : m.Lawful := by
  obtain ⟨htag, hseats, -⟩ := h
  obtain ⟨h1, h2, h3, h4⟩ := lawful_iff.1 hn
  exact lawful_iff.2 ⟨hseats.length_le.trans h1, htag ▸ h2, fun x hx => h3 x (hseats.subset hx), h4.sublist hseats⟩

/-- A slot and pitch that no entry has stays free. -/
theorem free {n m : NoteRoster} (h : n.Shrinks m) {k : Slot} {pitch : Nat}
    (hfree : ∀ e ∈ n.roster, ¬(e.slot = k ∧ e.pitch = pitch)) : ∀ e ∈ m.roster, ¬(e.slot = k ∧ e.pitch = pitch) := by
  rintro e he ⟨rfl, rfl⟩
  obtain ⟨x, hx, hseat⟩ := List.mem_map.1 (h.2.1.subset (List.mem_map_of_mem he))
  exact hfree x hx (Prod.ext_iff.1 (Prod.ext_iff.1 hseat).2)

theorem map {n m : NoteRoster} {f : RosterEntry → RosterEntry} (hseat : ∀ e, (f e).seat = e.seat)
    (hactive : ∀ e, (f e).active = true → e.active = true) (htag : m.nextTag = n.nextTag)
    (hroster : m.roster = n.roster.map f) : n.Shrinks m := by
  refine ⟨htag, ?_, fun k => ?_⟩
  · rw [hroster, List.map_map, show (RosterEntry.seat ∘ f) = RosterEntry.seat from funext hseat]
  · rw [count_eq, count_eq, hroster, List.countP_map]
    refine List.countP_mono_left fun e _ he => ?_
    have hslot : (f e).slot = e.slot := congrArg (fun x => x.2.1) (hseat e)
    simp only [Function.comp, Bool.and_eq_true, hslot] at he ⊢
    exact ⟨he.1, hactive e he.2⟩

theorem filter {n m : NoteRoster} {p : RosterEntry → Bool} (htag : m.nextTag = n.nextTag)
    (hroster : m.roster = n.roster.filter p) : n.Shrinks m := by
  have hsub : m.roster.Sublist n.roster := hroster ▸ List.filter_sublist
  refine ⟨htag, hsub.map _, fun k => ?_⟩
  rw [count_eq, count_eq]
  exact hsub.countP_le

end Shrinks

/-- The roster around one of its entries, no other of which carries its tag. -/
theorem Lawful.split {n : NoteRoster} (hn : n.Lawful) {e : RosterEntry} (he : e ∈ n.roster) :
    ∃ l₁ l₂, n.roster = l₁ ++ e :: l₂ ∧ ∀ x ∈ l₁ ++ l₂, x.tag ≠ e.tag := by
  obtain ⟨l₁, l₂, h⟩ := List.append_of_mem he
  refine ⟨l₁, l₂, h, fun x hx => ?_⟩
  obtain ⟨-, -, -, hpairwise⟩ := hn
  rw [h, List.pairwise_append, List.pairwise_cons] at hpairwise
  obtain ⟨-, ⟨hafter, -⟩, hbefore⟩ := hpairwise
  rcases List.mem_append.1 hx with hx | hx
  · exact (hbefore x hx e List.mem_cons_self).1
  · exact ((hafter x hx).1).symm

end NoteRoster

theorem State.mapEntry_split {s : State} {e : RosterEntry} {l₁ l₂ : List RosterEntry}
    (h : s.nrs.roster = l₁ ++ e :: l₂) (hne : ∀ x ∈ l₁ ++ l₂, x.tag ≠ e.tag) (f : RosterEntry → RosterEntry) :
    (s.mapEntry e.tag f).nrs.roster = l₁ ++ f e :: l₂ := by
  have hsame : ∀ l : List RosterEntry, (∀ x ∈ l, x.tag ≠ e.tag) →
      (l.map fun x => if x.tag = e.tag then f x else x) = l := by
    intro l hl
    exact (List.map_congr_left fun x hx => if_neg (hl x hx)).trans (List.map_id _)
  simp only [State.mapEntry, State.setNrs_nrs, h, List.map_append, List.map_cons, if_true]
  rw [hsame l₁ fun x hx => hne x (List.mem_append_left _ hx), hsame l₂ fun x hx => hne x (List.mem_append_right _ hx)]

theorem State.freeEntry_split {s : State} {e : RosterEntry} {l₁ l₂ : List RosterEntry}
    (h : s.nrs.roster = l₁ ++ e :: l₂) (hne : ∀ x ∈ l₁ ++ l₂, x.tag ≠ e.tag) :
    (s.freeEntry e.tag).nrs.roster = l₁ ++ l₂ := by
  have hsame : ∀ l : List RosterEntry, (∀ x ∈ l, x.tag ≠ e.tag) → (l.filter (·.tag != e.tag)) = l := by
    intro l hl
    exact List.filter_eq_self.2 fun x hx => by simpa using hl x hx
  simp only [State.freeEntry, State.setNrs_nrs, h, List.filter_append, List.filter_cons, bne_self_eq_false,
    Bool.false_eq_true, if_false]
  rw [hsame l₁ fun x hx => hne x (List.mem_append_left _ hx), hsame l₂ fun x hx => hne x (List.mem_append_right _ hx)]

theorem NoteRoster.Shrinks.mapEntry (s : State) (tag : Nat) {f : RosterEntry → RosterEntry}
    (hseat : ∀ e, (f e).seat = e.seat) (hactive : ∀ e, (f e).active = true → e.active = true) :
    s.nrs.Shrinks (s.mapEntry tag f).nrs :=
  .map (f := fun e => if e.tag = tag then f e else e) (fun e => by split <;> simp [hseat])
    (fun e => by split <;> simp +contextual [hactive]) rfl rfl

/-! ## Endings -/

theorem RosterEntry.toEnding_seat (e : RosterEntry) (a : EndArticulation) : (e.toEnding a).seat = e.seat := rfl

theorem RosterEntry.toEnding_active (e : RosterEntry) (a : EndArticulation) : (e.toEnding a).active = false := rfl

theorem NoteRoster.Shrinks.queueStop (s : State) (tag : Nat) (a : EndArticulation) :
    s.nrs.Shrinks (s.queueStop tag a).nrs := by
  rw [State.queueStop, State.countIfStolen_nrs]
  exact .mapEntry s tag (fun _ => rfl) (fun _ => id)

theorem NoteRoster.Shrinks.endEntry (s : State) (tag : Nat) (a : EndArticulation) :
    s.nrs.Shrinks (s.endEntry tag a).nrs := by
  have hending : s.nrs.Shrinks (s.mapEntry tag (·.toEnding a)).nrs := .mapEntry s tag (fun _ => rfl) fun _ => Bool.noConfusion
  rcases s.endEntry_cases tag a with ⟨-, h⟩ | ⟨e, -, ⟨-, h⟩ | ⟨-, -, h⟩ | ⟨-, -, h⟩ | ⟨-, -, -, h⟩ | ⟨-, -, h⟩⟩ <;> rw [h]
  · exact .refl _
  · exact .refl _
  · rw [State.reportCount_nrs]
    exact hending
  · rw [State.reportCount_nrs]
    exact .filter rfl rfl
  · rw [State.reportCount_nrs, State.countIfStolen_nrs]
    exact .mapEntry s tag (fun _ => rfl) (by simp [RosterEntry.toEnding, RosterEntry.active])
  · rw [State.reportCount_nrs]
    exact hending.trans (.queueStop _ tag a)

/-- Ending an entry that has not ended lowers the count of its slot. -/
theorem State.endEntry_count_lt {s : State} (hs : s.nrs.Lawful) {e : RosterEntry} (he : e ∈ s.nrs.roster)
    (hactive : e.active = true) (a : EndArticulation) : (s.endEntry e.tag a).nrs.count e.slot < s.nrs.count e.slot := by
  obtain ⟨l₁, l₂, hsplit, hne⟩ := hs.split he
  have hmap : ∀ f : RosterEntry → RosterEntry, (f e).active = false →
      (s.mapEntry e.tag f).nrs.count e.slot < s.nrs.count e.slot := by
    intro f hf
    rw [NoteRoster.count_eq, NoteRoster.count_eq, State.mapEntry_split hsplit hne, hsplit]
    simp [hf, hactive]
  rcases s.endEntry_cases e.tag a with ⟨hnone, -⟩ | ⟨e', he', hcases⟩
  · rw [State.entry?, hs.find he] at hnone
    cases hnone
  · rw [State.entry?, hs.find he] at he'
    obtain rfl := Option.some.inj he'
    rcases hcases with ⟨hst, -⟩ | ⟨-, -, h⟩ | ⟨-, -, h⟩ | ⟨-, -, -, h⟩ | ⟨-, -, h⟩
    · simp [RosterEntry.active, hst] at hactive
    · rw [h, State.reportCount_nrs]
      exact hmap _ rfl
    · rw [h, State.reportCount_nrs, NoteRoster.count_eq, NoteRoster.count_eq,
        State.freeEntry_split (s := s.withdrawTag e.tag) hsplit hne, hsplit]
      simp [hactive]
    · rw [h, State.reportCount_nrs, State.countIfStolen_nrs]
      exact hmap _ rfl
    · rw [h, State.reportCount_nrs]
      exact ((NoteRoster.Shrinks.queueStop _ e.tag a).2.2 e.slot).trans_lt (hmap _ rfl)

theorem NoteRoster.Shrinks.endVictim (s : State) (tag : Nat) (a : EndArticulation) :
    s.nrs.Shrinks (s.endVictim tag a).nrs := .endEntry s tag a

theorem NoteRoster.Shrinks.trimOldest (k : Slot) (a : EndArticulation) (n : Nat) (s : State) :
    s.nrs.Shrinks (State.trimOldest k a n s).nrs := by
  induction n generalizing s with
  | zero => exact .refl _
  | succ n ih =>
    unfold State.trimOldest
    split
    · exact .refl _
    · exact (NoteRoster.Shrinks.endVictim s _ a).trans (ih _)

theorem State.oldestIn_spec {s : State} {k : Slot} {v : RosterEntry} (h : s.oldestIn k = some v) :
    v ∈ s.nrs.roster ∧ v.slot = k ∧ v.active = true := by
  refine ⟨List.mem_of_find?_eq_some h, ?_⟩
  simpa using List.find?_some h

theorem State.count_of_oldestIn_none {s : State} {k : Slot} (h : s.oldestIn k = none) : s.nrs.count k = 0 := by
  rw [NoteRoster.count_eq, List.countP_eq_zero]
  exact List.find?_eq_none.1 h

/-- A trim of `n` entries lowers the slot's count by as many, as far as it goes. -/
theorem State.trimOldest_count (k : Slot) (a : EndArticulation) (n : Nat) {s : State} (hs : s.nrs.Lawful) :
    (State.trimOldest k a n s).nrs.count k ≤ s.nrs.count k - n := by
  induction n generalizing s with
  | zero => exact Nat.le_refl _
  | succ n ih =>
    unfold State.trimOldest
    split
    · rename_i h
      rw [State.count_of_oldestIn_none h]
      exact Nat.zero_le _
    · rename_i v h
      obtain ⟨hmem, rfl, hactive⟩ := State.oldestIn_spec h
      have hshrinks := NoteRoster.Shrinks.endVictim s v.tag a
      have hlt : (s.endVictim v.tag a).nrs.count v.slot < s.nrs.count v.slot := State.endEntry_count_lt hs hmem hactive a
      have hrest := ih (hshrinks.lawful hs)
      omega

/-- The trims bring every slot to its limit. -/
theorem State.trimAll_fits {s : State} (hs : s.nrs.Lawful) :
    s.nrs.Shrinks s.trimAll.nrs ∧ ∀ k : Slot, s.trimAll.nrs.count k ≤ s.ofu.limit.get k := by
  have hfold : ∀ (l : List Slot) (t : State), t.nrs.Lawful → t.nrs.Shrinks (l.foldl State.trimSlot t).nrs ∧
      ∀ k ∈ l, (l.foldl State.trimSlot t).nrs.count k ≤ t.ofu.limit.get k := by
    intro l
    induction l with
    | nil => exact fun t _ => ⟨.refl _, by simp⟩
    | cons j l ih =>
      intro t ht
      have hslot : t.nrs.Shrinks (t.trimSlot j).nrs := .trimOldest j _ _ t
      obtain ⟨hshrinks, hcount⟩ := ih (t.trimSlot j) (hslot.lawful ht)
      refine ⟨hslot.trans hshrinks, fun k hk => ?_⟩
      rcases List.mem_cons.1 hk with rfl | hk
      · have htrim := State.trimOldest_count k (if (t.ofu.table.get k).isNone then .lost else .stolen)
          (t.nrs.count k - t.ofu.limit.get k) ht
        have hrest : ((k :: l).foldl State.trimSlot t).nrs.count k ≤
            t.nrs.count k - (t.nrs.count k - t.ofu.limit.get k) := (hshrinks.2.2 k).trans htrim
        omega
      · have := hcount k hk
        rwa [(State.NotesOnly.trimSlot t j).ofu_eq] at this
  obtain ⟨hshrinks, hcount⟩ := hfold slots s hs
  exact ⟨hshrinks, fun k => hcount k (mem_slots k)⟩

/-- A new entry takes a free tag and a free seat. -/
theorem NoteRoster.Lawful.newEntry {s : State} (hs : s.nrs.Lawful) (r : NoteRequest) {k : Slot} {pitch : Nat}
    (hroom : s.nrs.roster.length < 32) (hfree : ∀ e ∈ s.nrs.roster, ¬(e.slot = k ∧ e.pitch = pitch)) :
    (s.newEntry r k pitch).2.nrs.Lawful := by
  obtain ⟨hlength, hnext, htags, hpairwise⟩ := hs
  obtain ⟨hfresh, hnew⟩ := s.nrs.freeTag_spec (by omega) hnext
  unfold State.newEntry
  rw [State.reportCount_nrs]
  refine ⟨by simp [State.enqueue, State.mapQueue]; omega, Nat.mod_lt _ (by decide), fun e he => ?_, ?_⟩
  · rcases List.mem_append.1 he with he | he
    · exact htags e he
    · rw [List.mem_singleton.1 he]
      exact hfresh
  · refine List.pairwise_append.2 ⟨hpairwise, List.pairwise_singleton _ _, fun e he x hx => ?_⟩
    rw [List.mem_singleton.1 hx]
    exact ⟨hnew e he, hfree e he⟩

/-! ## The law without the clause of LOADING -/

/-- The roster is lawful and no slot holds more than its limit. -/
def State.RosterFits (s : State) : Prop :=
  s.nrs.Lawful ∧ ∀ k : Slot, s.nrs.count k ≤ s.ofu.limit.get k

namespace State.RosterFits

theorem shrinks {s t : State} (hs : s.RosterFits) (h : s.nrs.Shrinks t.nrs) (hofu : t.ofu = s.ofu) : t.RosterFits :=
  ⟨h.lawful hs.1, fun k => (h.2.2 k).trans (by rw [hofu]; exact hs.2 k)⟩

theorem of_eq {s t : State} (hs : s.RosterFits) (h : t.nrs = s.nrs) (hofu : t.ofu = s.ofu) : t.RosterFits :=
  hs.shrinks (h ▸ .refl _) hofu

theorem endEntry {s : State} (hs : s.RosterFits) (tag : Nat) (a : EndArticulation) : (s.endEntry tag a).RosterFits :=
  hs.shrinks (.endEntry s tag a) (State.NotesOnly.endEntry s tag a).ofu_eq

/-- A new entry in a free seat of a slot below its limit. -/
theorem newEntry {s : State} (hs : s.RosterFits) (r : NoteRequest) {k : Slot} {pitch : Nat}
    (hroom : s.nrs.roster.length < 32) (hcount : s.nrs.count k < s.ofu.limit.get k)
    (hfree : ∀ e ∈ s.nrs.roster, ¬(e.slot = k ∧ e.pitch = pitch)) : (s.newEntry r k pitch).2.RosterFits := by
  refine ⟨hs.1.newEntry r hroom hfree, fun j => ?_⟩
  unfold State.newEntry
  rw [State.reportCount_nrs, (State.LevelsOnly.reportCount _ k).notesOnly.ofu_eq, NoteRoster.count_eq]
  have hj := hs.2 j
  rw [NoteRoster.count_eq] at hj hcount
  simp only [State.enqueue, State.mapQueue, State.setLkc_nrs, State.setNrs_nrs, List.countP_append,
    List.countP_singleton, State.setLkc_ofu, State.setNrs_ofu]
  by_cases h : k = j
  · subst h
    simpa [RosterEntry.active] using hcount
  · simpa [h] using hj

theorem capacityStep {s : State} (hs : s.RosterFits) (r : NoteRequest) {k : Slot} {pitch : Nat}
    (hcount : s.nrs.count k < s.ofu.limit.get k) (hfree : ∀ e ∈ s.nrs.roster, ¬(e.slot = k ∧ e.pitch = pitch)) :
    (s.capacityStep r k pitch).2.RosterFits := by
  unfold State.capacityStep
  split
  · rename_i hroom
    exact hs.newEntry r hroom hcount hfree
  · split
    · exact hs
    · rename_i v hv
      have hshrinks := NoteRoster.Shrinks.endVictim s v.tag .stolen
      have hofu := (State.NotesOnly.endVictim s v.tag .stolen).ofu_eq
      have hvictim := hs.shrinks hshrinks hofu
      dsimp only
      split
      · rename_i hroom
        refine hvictim.newEntry r hroom ?_ ?_
        · rw [hofu]
          exact (hshrinks.2.2 k).trans_lt hcount
        · exact hshrinks.free hfree
      · exact hvictim

theorem newNote {s : State} (hs : s.RosterFits) (r : NoteRequest) {k : Slot} {pitch : Nat}
    (hfree : ∀ e ∈ s.nrs.roster, ¬(e.slot = k ∧ e.pitch = pitch)) : (s.newNote r k pitch).2.RosterFits := by
  unfold State.newNote
  split
  · rename_i hcount
    exact hs.capacityStep r hcount hfree
  · split
    · exact hs
    · rename_i hlimit
      split
      · rename_i hnone
        exact hs.capacityStep r (by rw [State.count_of_oldestIn_none hnone]; omega) hfree
      · rename_i v hv
        obtain ⟨hmem, hslot, hactive⟩ := State.oldestIn_spec hv
        have hshrinks := NoteRoster.Shrinks.endVictim s v.tag .stolen
        have hofu := (State.NotesOnly.endVictim s v.tag .stolen).ofu_eq
        refine (hs.shrinks hshrinks hofu).capacityStep r ?_ (hshrinks.free hfree)
        have hlt : (s.endVictim v.tag .stolen).nrs.count v.slot < s.nrs.count v.slot :=
          State.endEntry_count_lt hs.1 hmem hactive .stolen
        have hle := hs.2 k
        rw [hslot] at hlt
        rw [hofu]
        omega

/-- A revival takes a place that its slot has. -/
theorem revive {s : State} (hs : s.RosterFits) (r : NoteRequest) {e : RosterEntry} (he : e ∈ s.nrs.roster) :
    (s.revive r e).2.RosterFits := by
  unfold State.revive
  split
  · rename_i hcount
    obtain ⟨l₁, l₂, hsplit, hne⟩ := hs.1.split he
    set u := if e.queued = .stop then s.withdrawTag e.tag else s.holdWithdrawal false
    have hnrs : u.nrs = s.nrs := by
      simp only [u]
      split <;> rfl
    have hofu : u.ofu = s.ofu := by
      simp only [u]
      split <;> rfl
    have hnext : (u.mapEntry e.tag (·.revived r)).nrs.nextTag = s.nrs.nextTag :=
      show u.nrs.nextTag = s.nrs.nextTag by rw [hnrs]
    have hroster := State.mapEntry_split (s := u) (by rw [hnrs]; exact hsplit) hne (·.revived r)
    have hlimit : ((u.mapEntry e.tag (·.revived r)).reportCount e.slot).ofu = s.ofu :=
      (State.LevelsOnly.reportCount _ _).notesOnly.ofu_eq.trans hofu
    have hseats : (u.mapEntry e.tag (·.revived r)).nrs.roster.map (·.seat) = s.nrs.roster.map (·.seat) := by
      rw [hroster, hsplit]
      simp [RosterEntry.revived, RosterEntry.seat]
    refine ⟨?_, fun k => ?_⟩
    · rw [State.reportCount_nrs]
      rw [NoteRoster.lawful_iff, hseats, hnext]
      exact NoteRoster.lawful_iff.1 hs.1
    · have hk := hs.2 k
      rw [hlimit, State.reportCount_nrs, NoteRoster.count_eq, hroster]
      rw [NoteRoster.count_eq, hsplit] at hk hcount
      simp only [List.countP_append, List.countP_cons] at hk hcount ⊢
      have hslot : (e.revived r).slot = e.slot := rfl
      by_cases h : e.slot = k
      · subst h
        simp only [hslot, beq_self_eq_true, Bool.true_and] at hk hcount ⊢
        split <;> split at hcount <;> omega
      · simpa [hslot, h] using hk
  · exact hs

theorem answerRequest {s : State} (hs : s.RosterFits) (r : NoteRequest) : (s.answerRequest r).2.RosterFits := by
  have hhandled : (s.handleRequest r).2.RosterFits := by
    unfold State.handleRequest
    split
    · exact hs
    · split
      · rename_i hfind
        refine hs.newNote r fun e he => ?_
        simpa using List.find?_eq_none.1 hfind e he
      · rename_i e hfind
        split
        · refine hs.shrinks (.mapEntry s e.tag (fun x => ?_) fun x => ?_) rfl
          · unfold RosterEntry.merged
            split <;> rfl
          · unfold RosterEntry.merged
            split <;> exact id
        · split
          · exact hs
          · exact hs.revive r (List.mem_of_find?_eq_some hfind)
  unfold State.answerRequest
  split
  · rename_i heq
    rw [heq] at hhandled
    exact hhandled
  · exact hhandled

end State.RosterFits

/-! ## The moves -/

theorem NoteRoster.Shrinks.refresh (s : State) : s.nrs.Shrinks s.refresh.nrs := by
  have hfold : ∀ (l : List RosterEntry) (t : State), t.nrs.Shrinks (l.foldl State.refreshEntry t).nrs := by
    intro l
    induction l with
    | nil => exact fun t => .refl _
    | cons e l ih =>
      intro t
      refine .trans ?_ (ih _)
      unfold State.refreshEntry
      split
      · exact .mapEntry t e.tag (fun _ => rfl) (fun _ => id)
      · exact .refl _
  exact hfold _ s

theorem NoteMove.keeps_rosterFits {s t : State} (h : NoteMove s t) (hs : s.RosterFits) : t.RosterFits := by
  cases h with
  | release tag => exact hs.shrinks (.mapEntry s tag (fun _ => rfl) fun _ => id) rfl
  | ending tag a => exact hs.endEntry tag a
  | request r => exact hs.answerRequest r
  | turnMark =>
    exact hs.shrinks (.map (f := fun e => { e with soundingAtTurn := e.state == .sounding }) (fun _ => rfl)
      (fun _ => id) rfl rfl) rfl
  | refresh => exact hs.shrinks (.refresh s) (State.NotesOnly.refresh s).ofu_eq
  | restart => exact hs.of_eq (State.LevelsOnly.restartLevels s).nrs_eq (State.LevelsOnly.restartLevels s).notesOnly.ofu_eq
  | unplaced | misses | overflow | plu | append | drop | withdrawBow | bow | answerOwed | settle => exact hs

theorem State.RosterFits.notes {s t : State} (h : NoteMoves s t) (hs : s.RosterFits) : t.RosterFits :=
  h.keeps (fun _ _ => NoteMove.keeps_rosterFits) hs

theorem State.withinLimits_iff {s : State} : s.WithinLimits ↔ s.RosterFits ∧ s.RosterEmptyInLoading := by
  unfold State.WithinLimits State.RosterFits
  tauto

/-- Where the station is in LOADING the roster is empty; what makes it no fuller keeps that. -/
theorem State.RosterEmptyInLoading.shrinks {s t : State} (hs : s.RosterEmptyInLoading) (h : s.nrs.Shrinks t.nrs)
    (hwaiting : s.nrs.waiting = none → t.nrs.waiting = none) (hstation : t.stc.station = .loading → s.stc.station = .loading) :
    t.RosterEmptyInLoading := by
  intro hloading
  obtain ⟨hroster, hnone⟩ := hs (hstation hloading)
  refine ⟨?_, hwaiting hnone⟩
  have hsub := h.2.1
  rw [hroster] at hsub
  simpa using hsub

theorem State.WithinLimits.shrinks {s t : State} (hs : s.WithinLimits) (h : s.nrs.Shrinks t.nrs)
    (hwaiting : s.nrs.waiting = none → t.nrs.waiting = none) (hstation : t.stc.station = .loading → s.stc.station = .loading)
    (hlimit : t.ofu.limit = s.ofu.limit) : t.WithinLimits := by
  obtain ⟨hlawful, hempty, hcount⟩ := hs
  exact ⟨h.lawful hlawful, hempty.shrinks h hwaiting hstation, fun k => (h.2.2 k).trans (hlimit ▸ hcount k)⟩

theorem State.WithinLimits.of_eq {s t : State} (hs : s.WithinLimits) (hnrs : t.nrs = s.nrs)
    (hstation : t.stc.station = .loading → s.stc.station = .loading) (hlimit : t.ofu.limit = s.ofu.limit) :
    t.WithinLimits :=
  hs.shrinks (hnrs ▸ .refl _) (by rw [hnrs]; exact id) hstation hlimit

theorem State.WithinLimits.levelsOnly {s t : State} (hs : s.WithinLimits) (h : State.LevelsOnly s t) : t.WithinLimits :=
  hs.of_eq h.nrs_eq (by rw [h.stc_eq]; exact id) (by rw [h.notesOnly.ofu_eq])

/-- The trims bring every slot within its limit, whatever the limits are. -/
theorem State.WithinLimits.trimAll {s : State} (hlawful : s.nrs.Lawful) (hempty : s.RosterEmptyInLoading) :
    s.trimAll.WithinLimits := by
  have hnotes : State.NotesOnly s s.trimAll := .trimAll s
  obtain ⟨hshrinks, hfits⟩ := State.trimAll_fits hlawful
  have hwaits : s.trimAll.nrs.waiting = s.nrs.waiting := (State.waits_eq_iff.1 s.trimAll_waits).2.2.2.1
  refine ⟨hshrinks.lawful hlawful, hempty.shrinks hshrinks hwaits.trans hnotes.station_eq.symm.trans, fun k => ?_⟩
  rw [hnotes.ofu_eq]
  exact hfits k

/-- A change of an entry that the roster holds, in a roster without another of its tag. -/
theorem NoteRoster.Shrinks.mapEntry_of_mem {s : State} (hs : s.nrs.Lawful) {e : RosterEntry} (he : e ∈ s.nrs.roster)
    {f : RosterEntry → RosterEntry} (hseat : (f e).seat = e.seat) (hactive : (f e).active = true → e.active = true) :
    s.nrs.Shrinks (s.mapEntry e.tag f).nrs := by
  obtain ⟨l₁, l₂, hsplit, hne⟩ := hs.split he
  refine ⟨rfl, ?_, fun k => ?_⟩
  · rw [State.mapEntry_split hsplit hne, hsplit]
    simp [hseat]
  · have hslot : (f e).slot = e.slot := congrArg (fun x => x.2.1) hseat
    rw [NoteRoster.count_eq, NoteRoster.count_eq, State.mapEntry_split hsplit hne, hsplit]
    simp only [List.countP_append, List.countP_cons, hslot]
    cases h : (f e).active with
    | true => simp [hactive h]
    | false => simp

theorem State.taken_roster (s : State) : s.taken.nrs.roster = s.nrs.roster ∧ s.taken.nrs.nextTag = s.nrs.nextTag ∧
    s.taken.nrs.waiting = none := by
  unfold State.taken
  split
  · rename_i h
    exact ⟨rfl, rfl, h⟩
  · exact ⟨rfl, rfl, rfl⟩

theorem NoteRoster.Shrinks.taken (s : State) : s.nrs.Shrinks s.taken.nrs := by
  obtain ⟨hroster, hnext, -⟩ := s.taken_roster
  exact .map (f := id) (fun _ => rfl) (fun _ => id) hnext (by simp [hroster])

theorem State.queueStop_waiting (s : State) (tag : Nat) (a : EndArticulation) :
    (s.queueStop tag a).nrs.waiting = s.nrs.waiting := by
  rw [State.queueStop, State.countIfStolen_nrs]
  rfl

theorem State.payOwedBow_nrs (s : State) : s.payOwedBow.nrs = s.nrs := by
  unfold State.payOwedBow
  split <;> rfl

theorem NoteRoster.Shrinks.startGoneOut {s : State} (hs : s.nrs.Lawful) (tag : Nat) :
    s.nrs.Shrinks (s.startGoneOut tag).nrs ∧ (s.startGoneOut tag).nrs.waiting = s.nrs.waiting := by
  unfold State.startGoneOut
  split
  · exact ⟨.refl _, rfl⟩
  · rename_i e he
    obtain ⟨hmem, rfl⟩ := State.entry?_mem he
    split
    · rename_i hactive
      exact ⟨.mapEntry_of_mem hs hmem rfl fun _ => hactive, rfl⟩
    · exact ⟨.queueStop s _ _, s.queueStop_waiting _ _⟩

theorem NoteRoster.Shrinks.frameOut {s : State} (hs : s.nrs.Lawful) (f : NoteFrame) :
    s.nrs.Shrinks (s.frameOut f).nrs ∧ (s.nrs.waiting = none → (s.frameOut f).nrs.waiting = none) := by
  cases f with
  | start tag _ _ _ _ =>
    obtain ⟨h, hwaiting⟩ := NoteRoster.Shrinks.startGoneOut hs tag
    exact ⟨h, hwaiting.trans⟩
  | refreshStart tag _ _ _ =>
    obtain ⟨h, hwaiting⟩ := NoteRoster.Shrinks.startGoneOut hs tag
    exact ⟨h, hwaiting.trans⟩
  | stop tag a =>
    have hfree : s.nrs.Shrinks (s.freeEntry tag).nrs := .filter rfl rfl
    exact ⟨hfree.trans (.taken _), fun _ => (s.freeEntry tag).taken_roster.2.2⟩
  | bow d mask =>
    have hnrs : (s.frameOut (.bow d mask)).nrs = s.nrs := s.payOwedBow_nrs
    rw [hnrs]
    exact ⟨.refl _, id⟩

theorem NoteRoster.Shrinks.frameBack (s : State) (f : NoteFrame) :
    s.nrs.Shrinks (s.frameBack f).nrs ∧ (s.nrs.waiting = none → (s.frameBack f).nrs.waiting = none) := by
  cases f with
  | start tag _ _ _ _ =>
    unfold State.frameBack State.noteNotGoneOut
    dsimp only
    split
    · exact ⟨.refl _, id⟩
    · split
      · exact ⟨.refl _, id⟩
      · exact ⟨.filter rfl rfl, id⟩
  | refreshStart tag _ _ _ =>
    unfold State.frameBack State.noteNotGoneOut
    dsimp only
    split
    · exact ⟨.refl _, id⟩
    · split
      · exact ⟨.refl _, id⟩
      · exact ⟨.queueStop (s.withdrawTag tag) _ _, ((s.withdrawTag tag).queueStop_waiting _ _).trans⟩
  | stop tag a => exact ⟨.taken s, fun _ => s.taken_roster.2.2⟩
  | bow d mask =>
    unfold State.frameBack State.noteNotGoneOut
    dsimp only
    split
    · rw [State.payOwedBow_nrs]
      exact ⟨.refl _, id⟩
    · exact ⟨.refl _, id⟩

theorem State.recordDrop_nrs (s : State) (o : AttemptOutcome) : (s.recordDrop o).nrs = s.nrs := by
  unfold State.recordDrop
  split <;> rfl

/-- The end of the attempt of the head of the queue, before a waiting request is handled again, adds no entry. -/
theorem NoteRoster.Shrinks.headEnded {s : State} (hs : s.nrs.Lawful) (a : Attempt) (r : AttemptResult) (q : QueueItem)
    (rest : List QueueItem) : s.nrs.Shrinks (s.headEnded a r q rest).nrs ∧
      (s.nrs.waiting = none → (s.headEnded a r q rest).nrs.waiting = none) := by
  rcases s.headEnded_cases a r q rest with h | h | h <;> rw [h]
  · set u := (s.mapQueue fun _ => rest).recordDrop (outcomeOf a.failures r)
    have hu : u.nrs = s.nrs := State.recordDrop_nrs _ _
    rw [← hu]
    exact NoteRoster.Shrinks.frameOut (by rw [hu]; exact hs) _
  · exact NoteRoster.Shrinks.frameBack (s.mapQueue fun _ => rest) _
  · exact NoteRoster.Shrinks.frameBack (s.mapQueue fun _ => _) _

theorem State.headEnded_frame (s : State) (a : Attempt) (r : AttemptResult) (q : QueueItem) (rest : List QueueItem) :
    (s.headEnded a r q rest).ofu = s.ofu ∧ (s.headEnded a r q rest).stc.station = s.stc.station := by
  have hdrop : ∀ u : State, ∀ o, (u.recordDrop o).ofu = u.ofu ∧ (u.recordDrop o).stc.station = u.stc.station := by
    intro u o
    unfold State.recordDrop
    split <;> exact ⟨rfl, rfl⟩
  have hfine : ∀ {u t : State}, FineMoves u t → t.ofu = u.ofu ∧ t.stc.station = u.stc.station := fun h =>
    ⟨h.notesOnly.ofu_eq, h.notesOnly.station_eq⟩
  have hback : ∀ f, ((s.mapQueue f).frameBack q.frame).ofu = s.ofu ∧
      ((s.mapQueue f).frameBack q.frame).stc.station = s.stc.station := by
    intro f
    have h := hfine (FineMoves.frameBack (s.mapQueue f) q.frame)
    exact h
  rcases s.headEnded_cases a r q rest with h | h | h <;> rw [h]
  · obtain ⟨h1, h2⟩ := hdrop (s.mapQueue fun _ => rest) (outcomeOf a.failures r)
    obtain ⟨g1, g2⟩ := hfine (FineMoves.frameOut ((s.mapQueue fun _ => rest).recordDrop (outcomeOf a.failures r)) q.frame)
    exact ⟨g1.trans h1, g2.trans h2⟩
  · exact hback _
  · exact hback _

theorem Move.keeps_withinLimits {s t : State} (h : Move s t) (hs : s.WithinLimits) : t.WithinLimits := by
  obtain ⟨hlawful, hempty, hcount⟩ := id hs
  cases h with
  | notes hstation h =>
    have hfits := (State.withinLimits_iff.1 hs).1.notes h
    exact State.withinLimits_iff.2 ⟨hfits, fun hloading => absurd (h.notesOnly.station_eq ▸ hloading) hstation⟩
  | elapse =>
    unfold State.elapse
    split
    · exact hs
    · exact hs.shrinks (.map (f := fun e => { e with deadline := e.deadline.tick }) (fun _ => rfl) (fun _ => id) rfl rfl)
        id id rfl
  | resetPin => exact State.withinLimits_reset.of_eq rfl (fun _ => rfl) rfl
  | risingEdge h =>
    refine State.withinLimits_reset.of_eq ?_ (fun _ => rfl) ?_ <;> simp [State.risingEdge, h, State.startLoading] <;> rfl
  | fault reason => exact hs.of_eq (s := s) rfl (fun h => StationState.noConfusion h) rfl
  | loading => exact State.withinLimits_reset.of_eq rfl (fun _ => rfl) rfl
  | record img h =>
    obtain ⟨hroster, hnone⟩ := hempty h
    have hnrs : ((s.writeRecord img).finishLoading img).nrs = s.nrs := (State.LevelsOnly.recomputeLevels _).nrs_eq
    refine ⟨?_, fun _ => ?_, fun k => ?_⟩ <;> rw [hnrs]
    · exact hlawful
    · exact ⟨hroster, hnone⟩
    · rw [NoteRoster.count_eq, hroster]
      exact Nat.zero_le _
  | join h hengine =>
    rw [State.startJoining_eq]
    split <;> exact hs.of_eq (s := s) rfl (fun h => StationState.noConfusion h) rfl
  | station st hw hst =>
    refine hs.of_eq (s := s) rfl (fun h => ?_) rfl
    rcases hst with rfl | rfl <;> cases h
  | write key f h => exact hs.levelsOnly (.writeEntry s key f)
  | group d level h =>
    refine State.WithinLimits.levelsOnly ?_ (State.LevelsOnly.regrouped s d level)
    exact hs
  | registration n =>
    refine State.WithinLimits.levelsOnly ?_ (State.LevelsOnly.recomputeLevels (s.setGrf { s.grf with registration := n }))
    exact hs
  | offers x hlimit hengine => exact hs.of_eq (s := s) rfl id hlimit
  | limits => exact State.WithinLimits.trimAll (s := s.recomputeLimits) hlawful hempty
  | idle =>
    rcases s.idle_cases with ⟨-, h⟩ | ⟨a, -, -, -, h⟩ | ⟨-, -, h⟩ <;> rw [h] <;> exact hs.of_eq rfl id rfl
  | tableEnds a key r htx h =>
    have hdrop : (((s.freed r).putEntry key (entryAfter ((s.freed r).lkc.updates.get key) a r)).recordDrop
        (outcomeOf a.failures r)).WithinLimits := by
      unfold State.recordDrop
      split <;> exact hs
    unfold State.endTableAttempt
    cases key <;> exact hdrop
  | headEnds a q rest r htx h hq hnotes hnone =>
    obtain ⟨hshrinks, hwaiting⟩ := NoteRoster.Shrinks.headEnded (s := s.freed r) hlawful a r q rest
    obtain ⟨hofu, hstation⟩ := (s.freed r).headEnded_frame a r q rest
    have hended : ((s.freed r).headEnded a r q rest).WithinLimits :=
      State.WithinLimits.shrinks (s := s.freed r) hs hshrinks hwaiting (by rw [hstation]; exact id) (by rw [hofu])
    refine State.withinLimits_iff.2 ⟨(State.withinLimits_iff.1 hended).1.notes hnotes, fun hloading => ?_⟩
    have hloading' : s.stc.station = .loading := (hnotes.notesOnly.station_eq.trans hstation).symm.trans hloading
    rw [hnone (hempty hloading').2]
    exact hended.2.1 (hstation.trans hloading')
  | pending | port | rate | timers | scanner | unit | sensor | presenceTimer | stale | sourceLost | sourceFresh | source
  | engineAbsent | dropEnds | peer | exhaustion | receiveError | receive | deliver | ownTaken | endsUnreported => exact hs
  | engineLive => exact hs

/-- Settles O55: each move of a step keeps the roster lawful and every slot within its limit. -/
theorem stepsKeepEverySlotWithinItsLimit : Obligations.StepsKeepEverySlotWithinItsLimit :=
  fun _ _ hstep => (Moves.step hstep).keeps fun _ _ => Move.keeps_withinLimits

end Sys2Proof.Machine
end

section
/-! PROOFS. The roster, the note queue and the attempt in flight agree. What their laws speak of is the ledger of a state;
the books (the entries and the frames queued for them) and the flight (the frame in flight and the ends it owes) are kept
apart, since most operations touch only one of the two. -/

namespace Sys2Proof.Machine

/-! ## The ledger -/

/-- What the laws of the notes speak of: the roster, the frames queued, the frame of the queue in flight with the withdrawal
held against it, and the counts reported. -/
structure Ledger where
  station : StationState
  nrs : NoteRoster
  queue : List NoteFrame
  flight : Option (OutFrame × Bool)
  free : Bool
  slotCount : PerSlot Nat

/-- The attempt of the note queue's head in flight, if any: its frame, and whether a withdrawal is held against it. -/
def headFlight (tx : Option Attempt) : Option (OutFrame × Bool) :=
  match tx with
  | none => none
  | some a => if a.source = .queueHead then some (a.frame, a.withdraw) else none

def State.ledger (s : State) : Ledger where
  station := s.stc.station
  nrs := s.nrs
  queue := s.lkc.noteQueue.map (·.frame)
  flight := headFlight s.lkc.tx
  free := s.lkc.tx.isNone
  slotCount := s.lvu.slotCount

/-- The tag of the entry a frame is queued for, and what that entry's queued-frame field says of it. -/
def NoteFrame.named (f : NoteFrame) : Option (Nat × QueuedFrame) := f.tag?.map (·, f.queuedAs)

/-- The tag of an entry and its queued frame, where it has one. -/
def RosterEntry.named (e : RosterEntry) : Option (Nat × QueuedFrame) :=
  if e.queued = .noFrame then none else some (e.tag, e.queued)

/-- An entry whose end waits for the attempt in flight to end. -/
def RosterEntry.Owed (e : RosterEntry) : Prop := e.state = .ending ∧ e.queued ≠ .stop

/-- The fields of an entry stand together (R72). -/
def RosterEntry.Fits (e : RosterEntry) : Prop :=
  (e.state = .starting → e.queued = .start) ∧
    (e.state = .sounding → e.queued = .noFrame ∨ e.queued = .refreshStart) ∧
    (e.state = .ending → e.queued ≠ .noFrame) ∧
    (e.endArticulation.isSome = true ↔ e.state = .ending) ∧
    (e.deadline.running = true ↔ e.articulation = .staccato ∧ e.state ≠ .ending)

/-- The entries fit, the frames queued are those that the entries name, at most one BOW waits, and the counts reported are
the roster's. -/
structure Ledger.Books (l : Ledger) : Prop where
  lawful : l.nrs.Lawful
  fits : ∀ e ∈ l.nrs.roster, e.Fits
  queued : (l.queue.filterMap (·.named)).Perm (l.nrs.roster.filterMap (·.named))
  bows : (l.queue.filter (·.isBow)).length ≤ 1
  counts : ∀ k : Slot, l.slotCount.get k = l.nrs.count k

/-- The frame in flight is the head of the queue; an end is owed only behind a withdrawal held against it, and such a
withdrawal only for an owed end; and a request waits only for a NOTE END in flight. -/
structure Ledger.Flight (l : Ledger) : Prop where
  head : ∀ x, l.flight = some x → ∃ f, l.queue.head? = some f ∧ x.1 = .note f
  owed : l.station ≠ .fault → ∀ e ∈ l.nrs.roster, e.Owed → ∃ f, l.flight = some (.note f, true) ∧ f.tag? = some e.tag
  withdraws : ∀ f, l.flight = some (.note f, true) → ∃ e ∈ l.nrs.roster, f.tag? = some e.tag ∧ e.Owed
  waits : l.nrs.waiting.isSome = true → l.station ≠ .fault → ∃ f w, l.flight = some (.note f, w) ∧ f.queuedAs = .stop

/-- The laws of the notes. -/
structure Ledger.Lawful (l : Ledger) : Prop where
  books : l.Books
  flight : l.Flight
  empty : l.station = .loading → l.nrs.roster = [] ∧ l.nrs.waiting = none
  fault : l.station = .fault → l.free = true

theorem NoteFrame.named_tag {f : NoteFrame} {x : Nat × QueuedFrame} (h : f.named = some x) :
    f.tag? = some x.1 ∧ f.queuedAs = x.2 := by
  obtain ⟨tag, htag, rfl⟩ := Option.map_eq_some_iff.1 h
  exact ⟨htag, rfl⟩

theorem RosterEntry.named_tag {e : RosterEntry} {x : Nat × QueuedFrame} (h : e.named = some x) :
    e.tag = x.1 ∧ e.queued = x.2 ∧ e.queued ≠ .noFrame := by
  unfold RosterEntry.named at h
  split at h
  · cases h
  · rename_i hne
    obtain rfl := Option.some.inj h
    exact ⟨rfl, rfl, hne⟩

theorem RosterEntry.named_of_ne {e : RosterEntry} (h : e.queued ≠ .noFrame) : e.named = some (e.tag, e.queued) := if_neg h

theorem NoteFrame.named_of_tag {f : NoteFrame} {tag : Nat} (h : f.tag? = some tag) : f.named = some (tag, f.queuedAs) := by
  simp [NoteFrame.named, h]

theorem NoteFrame.queuedAs_ne_noFrame {f : NoteFrame} {tag : Nat} (h : f.tag? = some tag) : f.queuedAs ≠ .noFrame := by
  cases f <;> simp_all [NoteFrame.tag?, NoteFrame.queuedAs]

/-! ## The laws of a state are those of its ledger -/

theorem headFlight_eq_some {tx : Option Attempt} {x : OutFrame × Bool} :
    headFlight tx = some x ↔ ∃ a, tx = some a ∧ a.source = .queueHead ∧ x = (a.frame, a.withdraw) := by
  unfold headFlight
  cases tx with
  | none => simp
  | some a =>
    dsimp only
    split <;> simp_all [eq_comm]

theorem filterMap_named_fst (q : List NoteFrame) :
    (q.filterMap (·.named)).map Prod.fst = q.filterMap (·.tag?) := by
  rw [List.map_filterMap]
  refine List.filterMap_congr fun f _ => ?_
  simp only [NoteFrame.named]
  cases f.tag? <;> rfl

theorem NoteRoster.Lawful.named_nodup {n : NoteRoster} (h : n.Lawful) :
    ((n.roster.filterMap (·.named)).map Prod.fst).Nodup := by
  obtain ⟨-, -, -, hpairwise⟩ := h
  rw [List.map_filterMap, List.Nodup, List.pairwise_filterMap]
  refine hpairwise.imp fun {a b} hab x hx y hy => ?_
  obtain ⟨u, hu, rfl⟩ := Option.map_eq_some_iff.1 hx
  obtain ⟨v, hv, rfl⟩ := Option.map_eq_some_iff.1 hy
  rw [← (RosterEntry.named_tag hu).1, ← (RosterEntry.named_tag hv).1]
  exact hab.1

/-- The queue matches the roster where it holds just the frames that the entries name. -/
theorem State.queueMatches_iff {s : State} (hs : s.nrs.Lawful) : s.QueueMatchesRoster ↔
    (s.ledger.queue.filterMap (·.named)).Perm (s.nrs.roster.filterMap (·.named)) ∧
      (s.ledger.queue.filter (·.isBow)).length ≤ 1 := by
  have htags : s.lkc.noteQueue.filterMap (·.frame.tag?) = (s.ledger.queue.filterMap (·.named)).map Prod.fst := by
    rw [filterMap_named_fst]
    simp [State.ledger, List.filterMap_map]
  have hbows : (s.lkc.noteQueue.filter (·.frame.isBow)).length = (s.ledger.queue.filter (·.isBow)).length := by
    simp [State.ledger, List.filter_map, Function.comp_def]
  have hframe : ∀ x, x ∈ s.ledger.queue.filterMap (·.named) ↔ ∃ q ∈ s.lkc.noteQueue, q.frame.named = some x := by
    intro x
    simp [State.ledger, List.mem_filterMap]
  have hentry : ∀ x, x ∈ s.nrs.roster.filterMap (·.named) ↔ ∃ e ∈ s.nrs.roster, e.named = some x := by
    intro x
    simp [List.mem_filterMap]
  unfold State.QueueMatchesRoster
  rw [htags, hbows]
  constructor
  · rintro ⟨hnodup, hbow, hto, hfrom⟩
    refine ⟨?_, hbow⟩
    rw [List.perm_ext_iff_of_nodup (List.Nodup.of_map _ hnodup) (List.Nodup.of_map _ hs.named_nodup)]
    rintro x
    rw [hframe, hentry]
    constructor
    · rintro ⟨q, hq, hx⟩
      obtain ⟨htag, hqueued⟩ := NoteFrame.named_tag hx
      obtain ⟨e, he, het, hequeued⟩ := hto q hq _ htag
      have hne : e.queued ≠ .noFrame := hequeued ▸ NoteFrame.queuedAs_ne_noFrame htag
      refine ⟨e, he, ?_⟩
      rw [RosterEntry.named_of_ne hne, het, hequeued, hqueued]
    · rintro ⟨e, he, hx⟩
      obtain ⟨htag, hqueued, hne⟩ := RosterEntry.named_tag hx
      obtain ⟨q, hq, hqtag⟩ := hfrom e he hne
      obtain ⟨e', he', htag', hqueued'⟩ := hto q hq _ hqtag
      obtain rfl : e' = e := by
        have h1 := hs.find he'
        have h2 := hs.find he
        rw [htag', h2] at h1
        exact (Option.some.inj h1).symm
      refine ⟨q, hq, ?_⟩
      rw [NoteFrame.named_of_tag hqtag, ← hqueued', htag, hqueued]
  · rintro ⟨hperm, hbow⟩
    refine ⟨(hperm.map Prod.fst).nodup_iff.2 hs.named_nodup, hbow, ?_, ?_⟩
    · intro q hq tag htag
      obtain ⟨e, he, hx⟩ := (hentry _).1 (hperm.mem_iff.1 ((hframe _).2 ⟨q, hq, NoteFrame.named_of_tag htag⟩))
      obtain ⟨h1, h2, -⟩ := RosterEntry.named_tag hx
      exact ⟨e, he, h1, h2⟩
    · intro e he hne
      obtain ⟨q, hq, hx⟩ := (hframe _).1 (hperm.mem_iff.2 ((hentry _).2 ⟨e, he, RosterEntry.named_of_ne hne⟩))
      exact ⟨q, hq, (NoteFrame.named_tag hx).1⟩

theorem State.tagInFlight_ledger {s : State} (h : s.ledger.Flight) {tag : Nat} : s.tagInFlight tag = true ↔
    ∃ f w, s.ledger.flight = some (.note f, w) ∧ f.tag? = some tag := by
  rw [State.tagInFlight_iff, State.queueInFlight_iff]
  constructor
  · rintro ⟨⟨a, htx, hsource⟩, q, hq, htag⟩
    have hflight : s.ledger.flight = some (a.frame, a.withdraw) := headFlight_eq_some.2 ⟨a, htx, hsource, rfl⟩
    obtain ⟨f, hf, hframe⟩ := h.head _ hflight
    have hqf : f = q.frame := by
      simp only [State.ledger, List.head?_map, hq, Option.map_some, Option.some.injEq] at hf
      exact hf.symm
    have hnote : a.frame = .note f := hframe
    exact ⟨f, a.withdraw, by rw [hflight, hnote], hqf ▸ htag⟩
  · rintro ⟨f, w, hflight, htag⟩
    obtain ⟨a, htx, hsource, -⟩ := headFlight_eq_some.1 hflight
    obtain ⟨g, hg, hgf⟩ := h.head _ hflight
    obtain rfl : f = g := by simpa using hgf
    simp only [State.ledger, List.head?_map, Option.map_eq_some_iff] at hg
    obtain ⟨q, hq, rfl⟩ := hg
    exact ⟨⟨a, htx, hsource⟩, q, hq, htag⟩

theorem State.notesLawful_iff {s : State} : s.NotesLawful ↔ s.ledger.Lawful := by
  constructor
  · rintro ⟨hlawful, hempty, hentries, hqueue, ⟨hhead, hwaits, hfault⟩, hcounts⟩
    obtain ⟨hperm, hbows⟩ := (State.queueMatches_iff hlawful).1 hqueue
    have hflying : ∀ x, s.ledger.flight = some x → ∃ q, s.lkc.noteQueue.head? = some q ∧ x.1 = .note q.frame ∧
        (x.2 = true → ∃ e ∈ s.nrs.roster, q.frame.tag? = some e.tag ∧ e.state = .ending ∧ e.queued ≠ .stop) := by
      intro x hx
      obtain ⟨a, htx, hsource, rfl⟩ := headFlight_eq_some.1 hx
      exact hhead a htx hsource
    have hheadOf : ∀ x, s.ledger.flight = some x → ∃ f, s.ledger.queue.head? = some f ∧ x.1 = .note f := by
      intro x hx
      obtain ⟨q, hq, hframe, -⟩ := hflying x hx
      exact ⟨q.frame, by simp [State.ledger, hq], hframe⟩
    refine ⟨⟨hlawful, fun e he => ?_, hperm, hbows, hcounts⟩, ⟨hheadOf, ?_, ?_, ?_⟩, hempty, fun h => ?_⟩
    · obtain ⟨h1, h2, h3, -, h5, h6⟩ := hentries e he
      exact ⟨h1, h2, h3, h5, h6⟩
    · rintro hstation e he ⟨hending, hstop⟩
      obtain ⟨-, -, -, howed, -, -⟩ := hentries e he
      obtain ⟨hflight, hwithdraw⟩ := howed hending hstop hstation
      obtain ⟨hq, q, hqhead, htag⟩ := State.tagInFlight_iff.1 hflight
      obtain ⟨a, htx, hsource⟩ := State.queueInFlight_iff.1 hq
      obtain ⟨q', hq', hframe, -⟩ := hhead a htx hsource
      obtain rfl := Option.some.inj (hqhead.symm.trans hq')
      exact ⟨q.frame, headFlight_eq_some.2 ⟨a, htx, hsource, by rw [hframe, hwithdraw a htx]⟩, htag⟩
    · intro f hf
      obtain ⟨q, hq, hframe, howed⟩ := hflying _ hf
      obtain rfl : f = q.frame := by simpa using hframe
      obtain ⟨e, he, htag, hending, hstop⟩ := howed rfl
      exact ⟨e, he, htag, hending, hstop⟩
    · intro hwaiting hstation
      obtain ⟨hq, q, hqhead, hstop⟩ := hwaits hwaiting hstation
      obtain ⟨a, htx, hsource⟩ := State.queueInFlight_iff.1 hq
      obtain ⟨q', hq', hframe, -⟩ := hhead a htx hsource
      obtain rfl := Option.some.inj (hqhead.symm.trans hq')
      exact ⟨q.frame, a.withdraw, headFlight_eq_some.2 ⟨a, htx, hsource, by rw [hframe]⟩, hstop⟩
    · simp [State.ledger, hfault h]
  · rintro ⟨⟨hlawful, hfits, hperm, hbows, hcounts⟩, hflight, hempty, hfault⟩
    refine ⟨hlawful, hempty, fun e he => ?_, (State.queueMatches_iff hlawful).2 ⟨hperm, hbows⟩, ⟨?_, ?_, ?_⟩, hcounts⟩
    · obtain ⟨h1, h2, h3, h5, h6⟩ := hfits e he
      refine ⟨h1, h2, h3, fun hending hstop hstation => ?_, h5, h6⟩
      obtain ⟨f, hf, htag⟩ := hflight.owed hstation e he ⟨hending, hstop⟩
      refine ⟨(State.tagInFlight_ledger hflight).2 ⟨f, true, hf, htag⟩, fun a htx => ?_⟩
      obtain ⟨b, hb, -, hpair⟩ := headFlight_eq_some.1 hf
      obtain rfl := Option.some.inj (htx.symm.trans hb)
      exact (Prod.ext_iff.1 hpair).2.symm
    · intro a htx hsource
      have hf : s.ledger.flight = some (a.frame, a.withdraw) := headFlight_eq_some.2 ⟨a, htx, hsource, rfl⟩
      obtain ⟨f, hhead, hframe⟩ := hflight.head _ hf
      simp only [State.ledger, List.head?_map, Option.map_eq_some_iff] at hhead
      obtain ⟨q, hq, rfl⟩ := hhead
      have hnote : a.frame = .note q.frame := hframe
      refine ⟨q, hq, hnote, fun hwithdraw => ?_⟩
      obtain ⟨e, he, htag, hending, hstop⟩ := hflight.withdraws q.frame (by rw [hf, hnote, hwithdraw])
      exact ⟨e, he, htag, hending, hstop⟩
    · intro hwaiting hstation
      obtain ⟨f, w, hf, hstop⟩ := hflight.waits hwaiting hstation
      obtain ⟨g, hg, hgf⟩ := hflight.head _ hf
      obtain rfl : f = g := by simpa using hgf
      obtain ⟨a, htx, hsource, -⟩ := headFlight_eq_some.1 hf
      simp only [State.ledger, List.head?_map, Option.map_eq_some_iff] at hg
      obtain ⟨q, hq, rfl⟩ := hg
      exact ⟨State.queueInFlight_iff.2 ⟨a, htx, hsource⟩, q, hq, hstop⟩
    · intro h
      have hfree := hfault h
      simpa [State.ledger] using hfree

/-! ## The books after an operation on one entry -/

theorem NoteFrame.named_of_none {f : NoteFrame} (h : f.tag? = none) : f.named = none := by
  simp [NoteFrame.named, h]

theorem filterMap_named_filter (q : List NoteFrame) (tag : Nat) :
    (q.filter (·.tag? != some tag)).filterMap (·.named) = (q.filterMap (·.named)).filter (·.1 != tag) := by
  induction q with
  | nil => rfl
  | cons f q ih =>
    cases htag : f.tag? with
    | none => simp [htag, ih, NoteFrame.named_of_none htag]
    | some t => by_cases h : t = tag <;> simp [htag, h, ih, NoteFrame.named_of_tag htag]

theorem filterMap_named_replace (q : List NoteFrame) (tag : Nat) (a : EndArticulation) :
    (q.map fun f => if f.tag? = some tag then .stop tag a else f).filterMap (·.named) =
      (q.filterMap (·.named)).map fun x => if x.1 = tag then (tag, .stop) else x := by
  have hstop : (NoteFrame.stop tag a).named = some (tag, .stop) := rfl
  induction q with
  | nil => rfl
  | cons f q ih =>
    rw [List.map_cons, List.filterMap_cons, List.filterMap_cons, ih]
    cases htag : f.tag? with
    | none => simp [NoteFrame.named_of_none htag]
    | some t => by_cases h : t = tag <;> simp [h, hstop, NoteFrame.named_of_tag htag]

/-- The frames that entries of other tags name. -/
theorem filterMap_named_ne {r : List RosterEntry} {tag : Nat} (h : ∀ x ∈ r, x.tag ≠ tag) :
    ∀ x ∈ r.filterMap (·.named), x.1 ≠ tag := by
  intro x hx
  obtain ⟨e, he, hx⟩ := List.mem_filterMap.1 hx
  rw [← (RosterEntry.named_tag hx).1]
  exact h e he

namespace Ledger.Books

variable {l m : Ledger} {e : RosterEntry} {l₁ l₂ : List RosterEntry}

/-- The frames of the books around one entry. -/
theorem around (h : l.Books) (hsplit : l.nrs.roster = l₁ ++ e :: l₂) :
    (l.queue.filterMap (·.named)).Perm (l₁.filterMap (·.named) ++ (e.named.toList ++ l₂.filterMap (·.named))) := by
  have hperm := h.queued
  rw [hsplit, List.filterMap_append, List.filterMap_cons] at hperm
  cases hnamed : e.named <;> simpa [hnamed] using hperm

/-- The frames without those of one entry. -/
theorem around_filter (h : l.Books) (hsplit : l.nrs.roster = l₁ ++ e :: l₂) (hne : ∀ x ∈ l₁ ++ l₂, x.tag ≠ e.tag) :
    ((l.queue.filter (·.tag? != some e.tag)).filterMap (·.named)).Perm
      (l₁.filterMap (·.named) ++ l₂.filterMap (·.named)) := by
  rw [filterMap_named_filter]
  refine ((h.around hsplit).filter _).trans ?_
  have hkeep : ∀ r : List RosterEntry, (∀ x ∈ r, x.tag ≠ e.tag) →
      (r.filterMap (·.named)).filter (·.1 != e.tag) = r.filterMap (·.named) := by
    intro r hr
    exact List.filter_eq_self.2 fun x hx => by simpa using filterMap_named_ne hr x hx
  have hdrop : e.named.toList.filter (·.1 != e.tag) = [] := by
    unfold RosterEntry.named
    split <;> simp
  rw [List.filter_append, List.filter_append, hdrop, hkeep l₁ fun x hx => hne x (List.mem_append_left _ hx),
    hkeep l₂ fun x hx => hne x (List.mem_append_right _ hx)]
  exact List.Perm.refl _

/-- The frames with the one of an entry replaced by its NOTE END. -/
theorem around_replace (h : l.Books) (hsplit : l.nrs.roster = l₁ ++ e :: l₂) (hne : ∀ x ∈ l₁ ++ l₂, x.tag ≠ e.tag)
    (hqueued : e.queued ≠ .noFrame) (a : EndArticulation) :
    ((l.queue.map fun f => if f.tag? = some e.tag then .stop e.tag a else f).filterMap (·.named)).Perm
      (l₁.filterMap (·.named) ++ ((e.tag, .stop) :: l₂.filterMap (·.named))) := by
  rw [filterMap_named_replace]
  refine ((h.around hsplit).map _).trans ?_
  have hkeep : ∀ r : List RosterEntry, (∀ x ∈ r, x.tag ≠ e.tag) →
      ((r.filterMap (·.named)).map fun x => if x.1 = e.tag then (e.tag, .stop) else x) = r.filterMap (·.named) := by
    intro r hr
    exact (List.map_congr_left fun x hx => if_neg (filterMap_named_ne hr x hx)).trans (List.map_id _)
  rw [RosterEntry.named_of_ne hqueued]
  simp only [Option.toList_some, List.map_append, List.map_cons, if_true, List.cons_append, List.nil_append]
  rw [hkeep l₁ fun x hx => hne x (List.mem_append_left _ hx), hkeep l₂ fun x hx => hne x (List.mem_append_right _ hx)]

/-- An entry replaced by another in the same seat, or freed, with its frames and the count of its slot. -/
theorem replace (h : l.Books) (hsplit : l.nrs.roster = l₁ ++ e :: l₂) (x : Option RosterEntry)
    (hroster : m.nrs.roster = l₁ ++ (x.toList ++ l₂)) (hnext : m.nrs.nextTag = l.nrs.nextTag)
    (hseat : ∀ y, x = some y → y.seat = e.seat) (hfits : ∀ y, x = some y → y.Fits)
    (hqueue : (m.queue.filterMap (·.named)).Perm
      (l₁.filterMap (·.named) ++ ((x.bind (·.named)).toList ++ l₂.filterMap (·.named))))
    (hbows : (m.queue.filter (·.isBow)).length ≤ 1)
    (hcount : m.slotCount.get e.slot = m.nrs.count e.slot)
    (hcounts : ∀ k : Slot, k ≠ e.slot → m.slotCount.get k = l.slotCount.get k) : m.Books := by
  have hslot : ∀ y, x = some y → y.slot = e.slot := fun y hy => congrArg (fun p => p.2.1) (hseat y hy)
  refine ⟨?_, fun y hy => ?_, ?_, hbows, fun k => ?_⟩
  · have hsub : (m.nrs.roster.map (·.seat)).Sublist (l.nrs.roster.map (·.seat)) := by
      rw [hroster, hsplit]
      cases x with
      | none => simp
      | some y => simp [hseat y rfl]
    obtain ⟨h1, h2, h3, h4⟩ := NoteRoster.lawful_iff.1 h.lawful
    exact NoteRoster.lawful_iff.2 ⟨hsub.length_le.trans h1, hnext ▸ h2, fun z hz => h3 z (hsub.subset hz), h4.sublist hsub⟩
  · have hold : y ∈ l₁ ++ l₂ → y.Fits := fun hy => h.fits y (by rw [hsplit]; simp at hy ⊢; tauto)
    rw [hroster] at hy
    cases x with
    | none => exact hold (by simpa using hy)
    | some z =>
      simp only [Option.toList_some, List.cons_append, List.nil_append, List.mem_append, List.mem_cons] at hy
      rcases hy with hy | rfl | hy
      · exact hold (List.mem_append_left _ hy)
      · exact hfits y rfl
      · exact hold (List.mem_append_right _ hy)
  · rw [hroster, List.filterMap_append, List.filterMap_append]
    refine hqueue.trans ?_
    cases x with
    | none => exact List.Perm.refl _
    | some y => cases hnamed : y.named <;> simp [hnamed]
  · by_cases hk : k = e.slot
    · rw [hk, hcount]
    · rw [hcounts k hk, h.counts k, NoteRoster.count_eq, NoteRoster.count_eq, hroster, hsplit]
      have hother : (e.slot == k) = false := by simpa using fun h => hk h.symm
      cases x with
      | none => simp [hother]
      | some y => simp [hslot y rfl, hother]

end Ledger.Books

end Sys2Proof.Machine
end

section
/-! PROOFS. Each move of the note path keeps the laws of the notes: what each operation does to the ledger, and that the
books and the flight stand after it. -/

namespace Sys2Proof.Machine

/-! ## What the operations do to the ledger -/

/-- The attempt of the queue's head in flight, and whether the transmitter is FREE. -/
def State.headTx (s : State) : Option (OutFrame × Bool) × Bool := (headFlight s.lkc.tx, s.lkc.tx.isNone)

namespace State

theorem writeEntry_headTx (s : State) (key : TableKey) (f : OutFrame) : (s.writeEntry key f).headTx = s.headTx := by
  rw [writeEntry_eq]
  unfold headTx keyInFlight headFlight
  cases htx : s.lkc.tx with
  | none => rfl
  | some a => by_cases h : a.source = .table key <;> simp [h]

theorem removeEntry_headTx (s : State) (key : TableKey) : (s.removeEntry key).headTx = s.headTx := by
  rw [removeEntry_eq]
  unfold headTx keyInFlight headFlight
  cases htx : s.lkc.tx with
  | none => rfl
  | some a => by_cases h : a.source = .table key <;> simp [h]

theorem headTx_foldl {α : Type} {f : State → α → State} (hf : ∀ s a, (f s a).headTx = s.headTx) (l : List α)
    (s : State) : (l.foldl f s).headTx = s.headTx := by
  induction l generalizing s with
  | nil => rfl
  | cons a l ih => exact (ih _).trans (hf s a)

theorem writeLevel_headTx (s : State) (k : Slot) : (s.writeLevel k).headTx = s.headTx := writeEntry_headTx s _ _

theorem examineLevel_headTx (s : State) (k : Slot) : (s.examineLevel k).headTx = s.headTx := by
  unfold examineLevel
  split
  · exact writeLevel_headTx s k
  · rfl

theorem recomputeLevels_headTx (s : State) : s.recomputeLevels.headTx = s.headTx := headTx_foldl examineLevel_headTx _ _

theorem restartLevel_headTx (s : State) (k : Slot) : (s.restartLevel k).headTx = s.headTx := by
  unfold restartLevel
  split
  · exact writeLevel_headTx s k
  · rfl

theorem removeLevel_headTx (s : State) (k : Slot) : (s.removeLevel k).headTx = s.headTx := by
  unfold removeLevel
  split
  · rfl
  · split <;> exact removeEntry_headTx s _

theorem levelRises_headTx (s : State) (k : Slot) : (s.levelRises k).headTx = s.headTx := by
  unfold levelRises
  dsimp only
  split
  · exact writeLevel_headTx (setLvu _ _) k
  · rfl

theorem reportCount_headTx (s : State) (k : Slot) : (s.reportCount k).headTx = s.headTx := by
  unfold reportCount
  dsimp only
  split
  · exact levelRises_headTx (setLvu _ _) k
  · split
    · exact removeLevel_headTx (setLvu _ _) k
    · rfl

/-- What leaves the notes' fields leaves the ledger. -/
theorem LevelsOnly.ledger_eq {s t : State} (h : LevelsOnly s t) (htx : t.headTx = s.headTx)
    (hcount : t.lvu.slotCount = s.lvu.slotCount) : t.ledger = s.ledger := by
  obtain ⟨hflight, hfree⟩ := Prod.ext_iff.1 htx
  have hflight : headFlight t.lkc.tx = headFlight s.lkc.tx := hflight
  have hfree : t.lkc.tx.isNone = s.lkc.tx.isNone := hfree
  unfold ledger
  rw [h.stc_eq, h.nrs_eq, h.noteQueue_eq, hflight, hfree, hcount]

theorem reportCount_ledger (s : State) (k : Slot) :
    (s.reportCount k).ledger = { s.ledger with slotCount := s.ledger.slotCount.set k (s.nrs.count k) } := by
  have h := LevelsOnly.reportCount s k
  obtain ⟨hflight, hfree⟩ := Prod.ext_iff.1 (s.reportCount_headTx k)
  have hflight : headFlight (s.reportCount k).lkc.tx = headFlight s.lkc.tx := hflight
  have hfree : (s.reportCount k).lkc.tx.isNone = s.lkc.tx.isNone := hfree
  unfold ledger
  rw [h.stc_eq, h.nrs_eq, h.noteQueue_eq, hflight, hfree, (s.reportCount_lvu k).1]

theorem countIfStolen_ledger (s : State) (a : EndArticulation) : (s.countIfStolen a).ledger = s.ledger := by
  unfold countIfStolen
  split <;> rfl

theorem restartLevels_ledger (s : State) : s.restartLevels.ledger = s.ledger := by
  refine (LevelsOnly.restartLevels s).ledger_eq (headTx_foldl restartLevel_headTx _ _) ?_
  simp [restartLevels, slots]

theorem recomputeLevels_ledger (s : State) : s.recomputeLevels.ledger = s.ledger :=
  (LevelsOnly.recomputeLevels s).ledger_eq s.recomputeLevels_headTx s.recomputeLevels_slotCount

theorem writeEntry_ledger (s : State) (key : TableKey) (f : OutFrame) : (s.writeEntry key f).ledger = s.ledger :=
  (LevelsOnly.writeEntry s key f).ledger_eq (s.writeEntry_headTx key f) (by rw [writeEntry_eq])

theorem enqueue_ledger (s : State) (f : NoteFrame) :
    (s.enqueue f).ledger = { s.ledger with queue := s.ledger.queue ++ [f] } := by
  simp [ledger, enqueue, mapQueue]

theorem withdrawTag_ledger (s : State) (tag : Nat) :
    (s.withdrawTag tag).ledger = { s.ledger with queue := s.ledger.queue.filter (·.tag? != some tag) } := by
  simp [ledger, withdrawTag, mapQueue, List.filter_map, Function.comp_def]

theorem withdrawBow_ledger (s : State) :
    s.withdrawBow.ledger = { s.ledger with queue := s.ledger.queue.filter (!·.isBow) } := by
  simp [ledger, withdrawBow, mapQueue, List.filter_map, Function.comp_def]

theorem replaceTag_ledger (s : State) (tag : Nat) (f : NoteFrame) : (s.replaceTag tag f).ledger =
    { s.ledger with queue := s.ledger.queue.map fun g => if g.tag? = some tag then f else g } := by
  simp only [ledger, replaceTag, mapQueue, setLkc_lkc, List.map_map, setLkc_stc, setLkc_nrs, setLkc_lvu]
  congr 1
  refine List.map_congr_left fun q _ => ?_
  simp only [Function.comp]
  split <;> rfl

theorem holdWithdrawal_ledger (s : State) (b : Bool) :
    (s.holdWithdrawal b).ledger = { s.ledger with flight := s.ledger.flight.map fun x => (x.1, b) } := by
  unfold ledger holdWithdrawal headFlight
  cases s.lkc.tx with
  | none => rfl
  | some a => by_cases h : a.source = .queueHead <;> simp [h]

theorem queueStop_nrs (s : State) (tag : Nat) (a : EndArticulation) :
    (s.queueStop tag a).nrs = (s.mapEntry tag fun e => { e with queued := .stop }).nrs := by
  rw [queueStop, countIfStolen_nrs]
  rfl

theorem queueStop_ledger (s : State) (tag : Nat) (a : EndArticulation) : (s.queueStop tag a).ledger =
    { (s.mapEntry tag fun e => { e with queued := .stop }).ledger with
      queue := s.ledger.queue ++ [.stop tag a] } := by
  rw [queueStop, countIfStolen_ledger, enqueue_ledger]
  rfl

end State

/-! ## Flights that an operation leaves -/

namespace Ledger

theorem Flight.quiet {l m : Ledger} (h : l.Flight) (hstation : m.station = l.station) (hflight : m.flight = l.flight)
    (hhead : l.flight.isSome = true → ∀ f, l.queue.head? = some f → m.queue.head? = some f)
    (howed : ∀ e : RosterEntry, e.Owed → (e ∈ m.nrs.roster ↔ e ∈ l.nrs.roster))
    (hwaiting : m.nrs.waiting.isSome = true → l.nrs.waiting.isSome = true) : m.Flight := by
  refine ⟨fun x hx => ?_, fun hfault e he hend => ?_, fun f hf => ?_, fun hw hfault => ?_⟩ <;>
    simp only [hstation, hflight] at *
  · obtain ⟨f, hf, hframe⟩ := h.head x hx
    exact ⟨f, hhead (by simp [hx]) f hf, hframe⟩
  · exact h.owed hfault e ((howed e hend).1 he) hend
  · obtain ⟨e, he, htag, hend⟩ := h.withdraws f hf
    exact ⟨e, (howed e hend).2 he, htag, hend⟩
  · exact h.waits (hwaiting hw) hfault

/-- The frame of an entry in flight. -/
def Flies (l : Ledger) (tag : Nat) : Prop := ∃ f w, l.flight = some (.note f, w) ∧ f.tag? = some tag

/-- Frames of an entry that is not in flight come and go behind the head in flight. -/
theorem Flight.head_filter {l : Ledger} (h : l.Flight) {p : NoteFrame → Bool}
    (hp : ∀ f w, l.flight = some (.note f, w) → p f = true) (hsome : l.flight.isSome = true) :
    ∀ f, l.queue.head? = some f → (l.queue.filter p).head? = some f := by
  intro f hf
  obtain ⟨x, hx⟩ := Option.isSome_iff_exists.1 hsome
  obtain ⟨g, hg, hframe⟩ := h.head x hx
  obtain rfl := Option.some.inj (hg.symm.trans hf)
  have hpg := hp g x.2 (by rw [hx, ← hframe])
  cases hqueue : l.queue with
  | nil => simp [hqueue] at hf
  | cons q rest =>
    obtain rfl : q = g := by simpa [hqueue] using hf
    simp [hpg]

theorem Flight.head_map {l : Ledger} (h : l.Flight) {p : NoteFrame → NoteFrame}
    (hp : ∀ f w, l.flight = some (.note f, w) → p f = f) (hsome : l.flight.isSome = true) :
    ∀ f, l.queue.head? = some f → (l.queue.map p).head? = some f := by
  intro f hf
  obtain ⟨x, hx⟩ := Option.isSome_iff_exists.1 hsome
  obtain ⟨g, hg, hframe⟩ := h.head x hx
  obtain rfl := Option.some.inj (hg.symm.trans hf)
  rw [List.head?_map, hf, Option.map_some, hp g x.2 (by rw [hx, ← hframe])]

/-- The frame of an entry that had none goes to the end of the queue. -/
theorem queued_append {q : List NoteFrame} {e : RosterEntry} {l₁ l₂ : List RosterEntry} {f : NoteFrame}
    {n : Option (Nat × QueuedFrame)}
    (h : (q.filterMap (·.named)).Perm (l₁.filterMap (·.named) ++ (e.named.toList ++ l₂.filterMap (·.named))))
    (he : e.named = none) (hf : f.named = n) : ((q ++ [f]).filterMap (·.named)).Perm
      (l₁.filterMap (·.named) ++ (n.toList ++ l₂.filterMap (·.named))) := by
  rw [he] at h
  rw [List.filterMap_append, show [f].filterMap (·.named) = n.toList by cases n <;> simp [hf]]
  refine (h.append_right _).trans ?_
  rw [Option.toList_none, List.nil_append, List.append_assoc]
  exact List.perm_append_comm.append_left _

theorem head?_append_some {α : Type} {l : List α} {a b : α} (h : l.head? = some a) : (l ++ [b]).head? = some a := by
  simp [h]

/-- The same tag is carried by one entry. -/
theorem Books.eq_of_tag {l : Ledger} (h : l.Books) {e e' : RosterEntry} (he : e ∈ l.nrs.roster) (he' : e' ∈ l.nrs.roster)
    (htag : e'.tag = e.tag) : e' = e := by
  have h1 := h.lawful.find he
  have h2 := h.lawful.find he'
  rw [htag, h1] at h2
  exact (Option.some.inj h2).symm

/-- A roster that differs in an entry not owed holds the same owed entries. -/
theorem owed_mem_iff {l₁ l₂ : List RosterEntry} {e : RosterEntry} {x : Option RosterEntry} (he : ¬e.Owed)
    (hx : ∀ y, x = some y → ¬y.Owed) {d : RosterEntry} (hd : d.Owed) :
    d ∈ l₁ ++ (x.toList ++ l₂) ↔ d ∈ l₁ ++ e :: l₂ := by
  have hde : d ≠ e := fun h => he (h ▸ hd)
  cases x with
  | none => simp [hde]
  | some y =>
    have hdy : d ≠ y := fun h => hx y rfl (h ▸ hd)
    simp [hde, hdy]

theorem Lawful.not_loading {l : Ledger} (h : l.Lawful) {e : RosterEntry} (he : e ∈ l.nrs.roster) :
    l.station ≠ .loading := by
  intro hloading
  rw [(h.empty hloading).1] at he
  cases he

/-- An entry changed or freed, neither before nor after it with an end owed. -/
theorem Lawful.replace {l m : Ledger} (h : l.Lawful) {e : RosterEntry} {l₁ l₂ : List RosterEntry}
    (hsplit : l.nrs.roster = l₁ ++ e :: l₂) (x : Option RosterEntry)
    (hroster : m.nrs.roster = l₁ ++ (x.toList ++ l₂)) (hnext : m.nrs.nextTag = l.nrs.nextTag)
    (hwaiting : m.nrs.waiting = l.nrs.waiting) (hstation : m.station = l.station) (hflight : m.flight = l.flight)
    (hfree : m.free = l.free)
    (hseat : ∀ y, x = some y → y.seat = e.seat) (hfits : ∀ y, x = some y → y.Fits)
    (he : ¬e.Owed) (hx : ∀ y, x = some y → ¬y.Owed)
    (hqueue : (m.queue.filterMap (·.named)).Perm
      (l₁.filterMap (·.named) ++ ((x.bind (·.named)).toList ++ l₂.filterMap (·.named))))
    (hbows : (m.queue.filter (·.isBow)).length ≤ 1)
    (hhead : l.flight.isSome = true → ∀ f, l.queue.head? = some f → m.queue.head? = some f)
    (hcount : m.slotCount.get e.slot = m.nrs.count e.slot)
    (hcounts : ∀ k : Slot, k ≠ e.slot → m.slotCount.get k = l.slotCount.get k) : m.Lawful := by
  refine ⟨h.books.replace hsplit x hroster hnext hseat hfits hqueue hbows hcount hcounts,
    h.flight.quiet hstation hflight hhead (fun d hd => ?_) (by rw [hwaiting]; exact id), fun hloading => ?_, fun hfault => ?_⟩
  · rw [hroster, hsplit]
    exact owed_mem_iff he hx hd
  · exact absurd (hstation ▸ hloading) (h.not_loading (hsplit ▸ by simp : e ∈ l.nrs.roster))
  · rw [hfree]
    exact h.fault (hstation ▸ hfault)

end Ledger

/-! ## Entries that end -/

theorem RosterEntry.Fits.toEnding {e : RosterEntry} (h : e.queued ≠ .noFrame) (a : EndArticulation) :
    (e.toEnding a).Fits := by
  simp [RosterEntry.Fits, RosterEntry.toEnding, h, Timer.running]

theorem RosterEntry.fits_stop (e : RosterEntry) (a : EndArticulation) :
    RosterEntry.Fits { e.toEnding a with queued := .stop } := .toEnding (e := { e with queued := .stop }) (by simp) a

theorem RosterEntry.not_owed_of_active {e : RosterEntry} (h : e.state ≠ .ending) : ¬e.Owed := fun ⟨hending, _⟩ => h hending

theorem RosterEntry.not_owed_of_stop {e : RosterEntry} (h : e.queued = .stop) : ¬e.Owed := fun ⟨_, hstop⟩ => hstop h

/-- The end of the entry in flight is owed behind a withdrawal held against its frame. -/
theorem Ledger.Lawful.hold {l m : Ledger} (h : l.Lawful) {e x : RosterEntry} {l₁ l₂ : List RosterEntry}
    (hsplit : l.nrs.roster = l₁ ++ e :: l₂) (hflies : l.Flies e.tag) (hroster : m.nrs.roster = l₁ ++ x :: l₂)
    (hnext : m.nrs.nextTag = l.nrs.nextTag) (hwaiting : m.nrs.waiting = l.nrs.waiting) (hstation : m.station = l.station)
    (hflight : m.flight = l.flight.map fun y => (y.1, true)) (hfree : m.free = l.free) (hseat : x.seat = e.seat)
    (hfits : x.Fits) (hx : x.Owed) (hqueued : x.queued = e.queued) (hqueue : m.queue = l.queue)
    (hcount : m.slotCount.get e.slot = m.nrs.count e.slot)
    (hcounts : ∀ k : Slot, k ≠ e.slot → m.slotCount.get k = l.slotCount.get k) : m.Lawful := by
  obtain ⟨f, w, hf, htag⟩ := hflies
  have hxtag : x.tag = e.tag := congrArg (·.1) hseat
  have hmf : m.flight = some (.note f, true) := by rw [hflight, hf]; rfl
  have hnamed : x.named = e.named := by simp [RosterEntry.named, hqueued, hxtag]
  have hmem : e ∈ l.nrs.roster := hsplit ▸ by simp
  refine ⟨h.books.replace hsplit (some x) hroster hnext (by simp [hseat]) (by simp [hfits]) ?_ ?_ hcount hcounts,
    ⟨fun y hy => ?_, fun hfault d hd hend => ?_, fun g hg => ?_, fun hw hfault => ?_⟩, fun hloading => ?_, fun hfault => ?_⟩
  · rw [hqueue]
    simpa [hnamed] using h.books.around hsplit
  · rw [hqueue]
    exact h.books.bows
  · obtain rfl := Option.some.inj (hmf.symm.trans hy)
    obtain ⟨g, hg, hgf⟩ := h.flight.head _ hf
    exact ⟨g, hqueue ▸ hg, hgf⟩
  · refine ⟨f, hmf, ?_⟩
    rw [hroster] at hd
    have hcases : d = x ∨ d ∈ l.nrs.roster := by
      rw [hsplit]
      simp only [List.mem_append, List.mem_cons] at hd ⊢
      tauto
    rcases hcases with rfl | hd
    · rw [htag, hxtag]
    · obtain ⟨g, hg, hgtag⟩ := h.flight.owed (hstation ▸ hfault) d hd hend
      rw [hf] at hg
      obtain ⟨rfl, -⟩ : f = g ∧ w = true := by simpa using hg
      exact hgtag
  · obtain rfl : f = g := by simpa [hmf] using hg
    exact ⟨x, by simp [hroster], by rw [htag, hxtag], hx⟩
  · obtain ⟨g, w', hg, hstop⟩ := h.flight.waits (by rw [← hwaiting]; exact hw) (hstation ▸ hfault)
    rw [hf] at hg
    obtain ⟨rfl, -⟩ : f = g ∧ w = w' := by simpa using hg
    exact ⟨f, true, hmf, hstop⟩
  · exact absurd (hstation ▸ hloading) (h.not_loading hmem)
  · rw [hfree]
    exact h.fault (hstation ▸ hfault)

namespace State

theorem bows_filter_le {q : List NoteFrame} (h : (q.filter (·.isBow)).length ≤ 1) (p : NoteFrame → Bool) :
    ((q.filter p).filter (·.isBow)).length ≤ 1 :=
  ((List.filter_sublist.filter _).length_le).trans h

theorem bows_append {q : List NoteFrame} (h : (q.filter (·.isBow)).length ≤ 1) {f : NoteFrame} (hf : f.isBow = false) :
    ((q ++ [f]).filter (·.isBow)).length ≤ 1 := by
  simpa [hf] using h

theorem bows_replace {q : List NoteFrame} (h : (q.filter (·.isBow)).length ≤ 1) (tag : Nat) (a : EndArticulation) :
    ((q.map fun f => if f.tag? = some tag then .stop tag a else f).filter (·.isBow)).length ≤ 1 := by
  rw [← List.countP_eq_length_filter] at h ⊢
  refine le_trans ?_ h
  rw [List.countP_map]
  refine List.countP_mono_left fun f _ hf => ?_
  simp only [Function.comp] at hf
  split at hf
  · exact absurd hf (by simp [NoteFrame.isBow])
  · exact hf

variable {s : State}

/-- The entry that carries a tag, with the roster around it. -/
theorem entry?_split (hs : s.ledger.Lawful) {tag : Nat} {e : RosterEntry} (h : s.entry? tag = some e) :
    e.tag = tag ∧ e ∈ s.nrs.roster ∧ e.Fits ∧ ∃ l₁ l₂, s.nrs.roster = l₁ ++ e :: l₂ ∧ ∀ x ∈ l₁ ++ l₂, x.tag ≠ e.tag := by
  obtain ⟨hmem, htag⟩ := State.entry?_mem h
  exact ⟨htag, hmem, hs.books.fits e hmem, hs.books.lawful.split hmem⟩

theorem not_flies (hs : s.ledger.Lawful) {tag : Nat} (h : s.tagInFlight tag = false) : ¬s.ledger.Flies tag := by
  intro hflies
  rw [(State.tagInFlight_ledger hs.flight).2 hflies] at h
  cases h

/-- A frame that leaves the queue is not the one in flight. -/
theorem head_withdraw (hs : s.ledger.Lawful) {tag : Nat} (h : ¬s.ledger.Flies tag) :
    s.ledger.flight.isSome = true → ∀ f, s.ledger.queue.head? = some f →
      (s.ledger.queue.filter (·.tag? != some tag)).head? = some f :=
  hs.flight.head_filter fun f w hf => by
    simp only [bne_iff_ne]
    exact fun htag => h ⟨f, w, hf, htag⟩

theorem endEntry_lawful (hs : s.ledger.Lawful) (tag : Nat) (a : EndArticulation) : (s.endEntry tag a).ledger.Lawful := by
  rcases s.endEntry_cases tag a with ⟨-, h⟩ | ⟨e, hentry, hcases⟩
  · rw [h]
    exact hs
  · obtain ⟨rfl, hmem, hfits, l₁, l₂, hsplit, hne⟩ := entry?_split hs hentry
    have hending := mapEntry_split hsplit hne (·.toEnding a)
    have hset : ∀ (v : PerSlot Nat) (n : Nat) (k : Slot), k ≠ e.slot → (v.set e.slot n).get k = v.get k :=
      fun v n k hk => PerSlot.get_set_ne v n (Ne.symm hk)
    rcases hcases with ⟨-, h⟩ | ⟨hstate, hflight, h⟩ | ⟨hstate, hflight, h⟩ | ⟨hstate, hqueued, hflight, h⟩ |
      ⟨hstate, hqueued, h⟩
    · rw [h]
      exact hs
    · have hframe : e.queued = .start ∨ e.queued = .refreshStart := by
        rcases hstate with hst | ⟨-, hq⟩
        · exact .inl (hfits.1 hst)
        · exact .inr hq
      rw [h, reportCount_ledger, holdWithdrawal_ledger]
      refine hs.hold hsplit ((tagInFlight_ledger hs.flight).1 hflight) (x := e.toEnding a) hending rfl rfl rfl rfl rfl rfl
        (.toEnding (by rcases hframe with hq | hq <;> simp [hq]) a) ⟨rfl, ?_⟩ rfl rfl (PerSlot.get_set_self _ _ _)
        (hset _ _)
      rcases hframe with hq | hq <;> simp [RosterEntry.toEnding, hq]
    · rw [h, reportCount_ledger]
      have hfree := freeEntry_split (s := s.withdrawTag e.tag) hsplit hne
      refine hs.replace hsplit none hfree rfl rfl rfl ?_ rfl (by simp) (by simp)
        (RosterEntry.not_owed_of_active (by simp [hstate])) (by simp) ?_ ?_ ?_ (PerSlot.get_set_self _ _ _) (hset _ _)
      all_goals
        simp only [show ((s.withdrawTag e.tag).freeEntry e.tag).ledger =
          { (s.withdrawTag e.tag).ledger with nrs := ((s.withdrawTag e.tag).freeEntry e.tag).nrs } from rfl,
          withdrawTag_ledger]
      · exact hs.books.around_filter hsplit hne
      · exact bows_filter_le hs.books.bows _
      · exact head_withdraw hs (not_flies hs hflight)
    · rw [h, reportCount_ledger, countIfStolen_nrs, countIfStolen_ledger, replaceTag_ledger]
      have hstop := mapEntry_split hsplit hne fun e => { e.toEnding a with queued := .stop }
      have hqueue := hs.books.around_replace hsplit hne (by simp [hqueued]) a
      refine hs.replace hsplit (some { e.toEnding a with queued := .stop }) hstop rfl rfl rfl rfl rfl
        (fun y hy => Option.some.inj hy ▸ rfl) (fun y hy => Option.some.inj hy ▸ e.fits_stop a)
        (RosterEntry.not_owed_of_active (by simp [hstate]))
        (fun y hy => Option.some.inj hy ▸ RosterEntry.not_owed_of_stop rfl) hqueue (bows_replace hs.books.bows _ _)
        (hs.flight.head_map fun f w hf => if_neg fun htag => not_flies hs hflight ⟨f, w, hf, htag⟩)
        (PerSlot.get_set_self _ _ _) (hset _ _)
    · have hnone : e.queued = .noFrame := by
        rcases hfits.2.1 hstate with hq | hq
        · exact hq
        · exact absurd hq hqueued
      have hstop := mapEntry_split (s := s.mapEntry e.tag (·.toEnding a)) (e := e.toEnding a) hending hne
        fun e => { e with queued := .stop }
      rw [h, reportCount_ledger, queueStop_nrs, queueStop_ledger]
      refine hs.replace hsplit (some { e.toEnding a with queued := .stop }) hstop rfl rfl rfl rfl rfl
        (fun y hy => Option.some.inj hy ▸ rfl) (fun y hy => Option.some.inj hy ▸ e.fits_stop a)
        (RosterEntry.not_owed_of_active (by simp [hstate]))
        (fun y hy => Option.some.inj hy ▸ RosterEntry.not_owed_of_stop rfl) ?_ (bows_append hs.books.bows rfl)
        (fun _ f hf => Ledger.head?_append_some hf) (PerSlot.get_set_self _ _ _) (hset _ _)
      exact Ledger.queued_append (hs.books.around hsplit) (by simp [RosterEntry.named, hnone]) rfl

/-! ## Requests -/

/-- A law of the ledger is none of what lies outside it. -/
theorem lawful_of_ledger {s t : State} (hs : s.ledger.Lawful) (h : t.ledger = s.ledger) : t.ledger.Lawful := h ▸ hs

theorem endVictim_lawful (hs : s.ledger.Lawful) (tag : Nat) (a : EndArticulation) :
    (s.endVictim tag a).ledger.Lawful := endEntry_lawful hs tag a

theorem deadline_running (r : NoteRequest) : r.deadline.running = true ↔ r.articulation = .staccato := by
  unfold NoteRequest.deadline
  split <;> simp_all [Timer.running]

theorem newEntry_lawful (hs : s.ledger.Lawful) (hloading : s.stc.station ≠ .loading) (r : NoteRequest) {k : Slot}
    {pitch : Nat} (hroom : s.nrs.roster.length < 32) (hfree : ∀ e ∈ s.nrs.roster, ¬(e.slot = k ∧ e.pitch = pitch)) :
    (s.newEntry r k pitch).2.ledger.Lawful := by
  have hlawful := NoteRoster.Lawful.newEntry (s := s) hs.books.lawful r hroom hfree
  unfold State.newEntry at hlawful ⊢
  dsimp only at hlawful ⊢
  rw [reportCount_nrs] at hlawful
  rw [reportCount_ledger, enqueue_ledger]
  refine ⟨⟨hlawful, fun e he => ?_, ?_, bows_append hs.books.bows rfl, fun j => ?_⟩,
    hs.flight.quiet rfl rfl (fun _ f hf => Ledger.head?_append_some hf) (fun e he => ?_) id,
    fun h => absurd h hloading, hs.fault⟩
  · rcases List.mem_append.1 he with he | he
    · exact hs.books.fits e he
    · rw [List.mem_singleton.1 he]
      simp [RosterEntry.Fits, deadline_running]
  · have hqueued := hs.books.queued
    simp only [State.ledger, State.setNrs_nrs, State.setNrs_lkc, List.filterMap_append] at hqueued ⊢
    exact hqueued.append_right _
  · by_cases hj : k = j
    · subst hj
      exact PerSlot.get_set_self _ _ _
    · refine (PerSlot.get_set_ne _ _ hj).trans ((hs.books.counts j).trans ?_)
      rw [NoteRoster.count_eq, NoteRoster.count_eq]
      simp [State.ledger, hj]
  · refine ⟨fun hm => ?_, fun hm => List.mem_append_left _ hm⟩
    rcases List.mem_append.1 hm with hm | hm
    · exact hm
    · rw [List.mem_singleton.1 hm] at he
      exact absurd he (RosterEntry.not_owed_of_active (by simp))

theorem capacityStep_lawful (hs : s.ledger.Lawful) (hloading : s.stc.station ≠ .loading) (r : NoteRequest) {k : Slot}
    {pitch : Nat} (hfree : ∀ e ∈ s.nrs.roster, ¬(e.slot = k ∧ e.pitch = pitch)) :
    (s.capacityStep r k pitch).2.ledger.Lawful := by
  unfold State.capacityStep
  split
  · rename_i hroom
    exact newEntry_lawful hs hloading r hroom hfree
  · split
    · exact hs
    · rename_i v _
      have hvictim := endVictim_lawful hs v.tag .stolen
      dsimp only
      split
      · rename_i hroom
        exact newEntry_lawful hvictim (by rw [(NotesOnly.endVictim s v.tag .stolen).station_eq]; exact hloading) r hroom
          ((NoteRoster.Shrinks.endVictim s v.tag .stolen).free hfree)
      · exact hvictim

theorem newNote_lawful (hs : s.ledger.Lawful) (hloading : s.stc.station ≠ .loading) (r : NoteRequest) {k : Slot}
    {pitch : Nat} (hfree : ∀ e ∈ s.nrs.roster, ¬(e.slot = k ∧ e.pitch = pitch)) :
    (s.newNote r k pitch).2.ledger.Lawful := by
  unfold State.newNote
  split
  · exact capacityStep_lawful hs hloading r hfree
  · split
    · exact hs
    · split
      · exact capacityStep_lawful hs hloading r hfree
      · rename_i v _
        exact capacityStep_lawful (endVictim_lawful hs v.tag .stolen)
          (by rw [(NotesOnly.endVictim s v.tag .stolen).station_eq]; exact hloading) r
          ((NoteRoster.Shrinks.endVictim s v.tag .stolen).free hfree)

theorem merged_fits {e : RosterEntry} (h : e.Fits) (r : NoteRequest) : (e.merged r).Fits := by
  obtain ⟨h1, h2, h3, h4, h5⟩ := h
  unfold RosterEntry.merged
  split
  · exact ⟨h1, h2, h3, h4, by simp [Timer.running]⟩
  · exact ⟨h1, h2, h3, h4, h5⟩

theorem merged_same (e : RosterEntry) (r : NoteRequest) : (e.merged r).seat = e.seat ∧ (e.merged r).state = e.state ∧
    (e.merged r).queued = e.queued := by
  unfold RosterEntry.merged
  split <;> exact ⟨rfl, rfl, rfl⟩

theorem count_split_same {n m : NoteRoster} {l₁ l₂ : List RosterEntry} {e x : RosterEntry}
    (hn : n.roster = l₁ ++ e :: l₂) (hm : m.roster = l₁ ++ x :: l₂) (hslot : x.slot = e.slot)
    (hactive : x.active = e.active) (k : Slot) : m.count k = n.count k := by
  rw [NoteRoster.count_eq, NoteRoster.count_eq, hn, hm]
  simp [List.countP_cons, hslot, hactive]

theorem merge_lawful (hs : s.ledger.Lawful) (r : NoteRequest) {e : RosterEntry} (he : e ∈ s.nrs.roster)
    (hactive : e.state ≠ .ending) : (s.mapEntry e.tag (·.merged r)).ledger.Lawful := by
  obtain ⟨l₁, l₂, hsplit, hne⟩ := hs.books.lawful.split he
  obtain ⟨hseat, hstate, hqueued⟩ := merged_same e r
  have hroster := mapEntry_split hsplit hne (·.merged r)
  have hslot : (e.merged r).slot = e.slot := congrArg (fun x => x.2.1) hseat
  have hcount := count_split_same (n := s.nrs) (m := (s.mapEntry e.tag (·.merged r)).nrs) hsplit hroster hslot
    (by simp [RosterEntry.active, hstate])
  have hnamed : (e.merged r).named = e.named := by
    simp [RosterEntry.named, hqueued, show (e.merged r).tag = e.tag from congrArg (·.1) hseat]
  refine hs.replace hsplit (some (e.merged r)) hroster rfl rfl rfl rfl rfl (fun y hy => Option.some.inj hy ▸ hseat)
    (fun y hy => Option.some.inj hy ▸ merged_fits (hs.books.fits e he) r)
    (RosterEntry.not_owed_of_active hactive)
    (fun y hy => Option.some.inj hy ▸ RosterEntry.not_owed_of_active (by rw [hstate]; exact hactive)) ?_
    hs.books.bows (fun _ _ h => h) ((hs.books.counts _).trans (hcount _).symm) (fun _ _ => rfl)
  have hqueue := hs.books.around hsplit
  rw [← hnamed] at hqueue
  exact hqueue

theorem revived_fits {e : RosterEntry} (h : e.Fits) (hending : e.state = .ending) (r : NoteRequest) : (e.revived r).Fits := by
  have hne := h.2.2.1 hending
  cases hq : e.queued <;> simp_all [RosterEntry.Fits, RosterEntry.revived, deadline_running]

theorem revived_state (e : RosterEntry) (r : NoteRequest) : (e.revived r).state ≠ .ending := by
  simp only [RosterEntry.revived]
  split <;> simp

/-- An owed end cancelled: the withdrawal is no longer held, and the entry is revived. -/
theorem reviveOwed_lawful (hs : s.ledger.Lawful) (r : NoteRequest) {e : RosterEntry} (he : e ∈ s.nrs.roster)
    (howed : e.Owed) :
    (((s.holdWithdrawal false).mapEntry e.tag (·.revived r)).reportCount e.slot).ledger.Lawful := by
  obtain ⟨l₁, l₂, hsplit, hne⟩ := hs.books.lawful.split he
  have hfits := hs.books.fits e he
  have hroster := mapEntry_split (s := s.holdWithdrawal false) hsplit hne (·.revived r)
  have hnamed : (e.revived r).named = e.named := by
    simp [RosterEntry.named, RosterEntry.revived, howed.2]
  have hactive := RosterEntry.not_owed_of_active (revived_state e r)
  rw [reportCount_ledger]
  have hledger : ((s.holdWithdrawal false).mapEntry e.tag (·.revived r)).ledger =
      { (s.holdWithdrawal false).ledger with nrs := ((s.holdWithdrawal false).mapEntry e.tag (·.revived r)).nrs } := rfl
  rw [hledger, holdWithdrawal_ledger]
  refine ⟨hs.books.replace hsplit (some (e.revived r)) hroster rfl (fun y hy => Option.some.inj hy ▸ rfl)
      (fun y hy => Option.some.inj hy ▸ revived_fits hfits howed.1 r) (by simpa [hnamed] using hs.books.around hsplit)
      hs.books.bows (PerSlot.get_set_self _ _ _) (fun k hk => PerSlot.get_set_ne _ _ (Ne.symm hk)),
    ⟨fun x hx => ?_, fun hfault d hd hend => ?_, fun f hf => ?_, fun hw hfault => ?_⟩,
    fun h => absurd h (hs.not_loading he), hs.fault⟩
  · obtain ⟨y, hy, rfl⟩ := Option.map_eq_some_iff.1 hx
    exact hs.flight.head y hy
  · exfalso
    have hd : d ∈ l₁ ++ e.revived r :: l₂ := hroster ▸ hd
    have hother : d ∈ l₁ ++ l₂ := by
      simp only [List.mem_append, List.mem_cons] at hd ⊢
      rcases hd with hd | rfl | hd
      · exact .inl hd
      · exact absurd hend hactive
      · exact .inr hd
    have hmem : d ∈ s.nrs.roster := by
      have hmem : d ∈ l₁ ++ e :: l₂ := by
        simp only [List.mem_append, List.mem_cons] at hother ⊢
        tauto
      exact hsplit ▸ hmem
    obtain ⟨f, hf, htag⟩ := hs.flight.owed hfault e he howed
    obtain ⟨g, hg, hgtag⟩ := hs.flight.owed hfault d hmem hend
    obtain rfl : f = g := by simpa using hf.symm.trans hg
    exact hne d hother (Option.some.inj (hgtag.symm.trans htag))
  · obtain ⟨y, -, hy⟩ := Option.map_eq_some_iff.1 hf
    exact absurd (Prod.ext_iff.1 hy).2 (by simp)
  · obtain ⟨f, w, hf, hstop⟩ := hs.flight.waits hw hfault
    exact ⟨f, false, by simp [hf], hstop⟩

/-- A queued END withdrawn: the entry is revived as SOUNDING with no frame. -/
theorem reviveStop_lawful (hs : s.ledger.Lawful) (r : NoteRequest) {e : RosterEntry} (he : e ∈ s.nrs.roster)
    (hstop : e.queued = .stop) (hflies : ¬s.ledger.Flies e.tag) (hending : e.state = .ending) :
    (((s.withdrawTag e.tag).mapEntry e.tag (·.revived r)).reportCount e.slot).ledger.Lawful := by
  obtain ⟨l₁, l₂, hsplit, hne⟩ := hs.books.lawful.split he
  have hroster := mapEntry_split (s := s.withdrawTag e.tag) hsplit hne (·.revived r)
  have hnamed : (e.revived r).named = none := by
    simp [RosterEntry.named, RosterEntry.revived, hstop]
  rw [reportCount_ledger]
  have hledger : ((s.withdrawTag e.tag).mapEntry e.tag (·.revived r)).ledger =
      { (s.withdrawTag e.tag).ledger with nrs := ((s.withdrawTag e.tag).mapEntry e.tag (·.revived r)).nrs } := rfl
  rw [hledger, withdrawTag_ledger]
  refine hs.replace hsplit (some (e.revived r)) hroster rfl rfl rfl rfl rfl (fun y hy => Option.some.inj hy ▸ rfl)
    (fun y hy => Option.some.inj hy ▸ revived_fits (hs.books.fits e he) hending r) (RosterEntry.not_owed_of_stop hstop)
    (fun y hy => Option.some.inj hy ▸ RosterEntry.not_owed_of_active (revived_state e r)) ?_ (bows_filter_le hs.books.bows _)
    (head_withdraw hs hflies) (PerSlot.get_set_self _ _ _) (fun k hk => PerSlot.get_set_ne _ _ (Ne.symm hk))
  simpa [hnamed] using hs.books.around_filter hsplit hne

/-- A request waits for the NOTE END in flight of an entry. -/
theorem waits_lawful (hs : s.ledger.Lawful) (r : NoteRequest) {e : RosterEntry} (he : e ∈ s.nrs.roster)
    (hstop : e.queued = .stop) (hflies : s.ledger.Flies e.tag) :
    (s.setNrs { s.nrs with waiting := some r }).ledger.Lawful := by
  obtain ⟨f, w, hf, htag⟩ := hflies
  have hframe : f.queuedAs = .stop := by
    obtain ⟨g, hg, hgf⟩ := hs.flight.head _ hf
    obtain rfl : f = g := by simpa using hgf
    have hmem : (e.tag, f.queuedAs) ∈ s.nrs.roster.filterMap (·.named) :=
      hs.books.queued.mem_iff.1 (List.mem_filterMap.2 ⟨f, List.mem_of_mem_head? hg, NoteFrame.named_of_tag htag⟩)
    obtain ⟨e', he', hnamed⟩ := List.mem_filterMap.1 hmem
    obtain ⟨htag', hqueued, -⟩ := RosterEntry.named_tag hnamed
    rw [hs.books.eq_of_tag he he' htag'] at hqueued
    exact hqueued.symm.trans hstop
  exact ⟨⟨hs.books.lawful, hs.books.fits, hs.books.queued, hs.books.bows, hs.books.counts⟩,
    ⟨hs.flight.head, hs.flight.owed, hs.flight.withdraws, fun _ _ => ⟨f, w, hf, hframe⟩⟩,
    fun h => absurd h (hs.not_loading he), hs.fault⟩

theorem answerRequest_lawful (hs : s.ledger.Lawful) (hloading : s.stc.station ≠ .loading) (r : NoteRequest) :
    (s.answerRequest r).2.ledger.Lawful := by
  have hhandled : (s.handleRequest r).2.ledger.Lawful := by
    unfold State.handleRequest
    split
    · exact hs
    · split
      · rename_i hfind
        refine newNote_lawful hs hloading r fun e he => ?_
        simpa using List.find?_eq_none.1 hfind e he
      · rename_i e hfind
        have he := List.mem_of_find?_eq_some hfind
        split
        · rename_i hactive
          exact merge_lawful hs r he (by simpa [RosterEntry.active] using hactive)
        · rename_i hending
          have hending : e.state = .ending := by simpa [RosterEntry.active] using hending
          split
          · rename_i hwait
            exact waits_lawful hs r he hwait.1 ((tagInFlight_ledger hs.flight).1 hwait.2)
          · rename_i hwait
            unfold State.revive
            split
            · by_cases hstop : e.queued = .stop
              · simp only [hstop, if_true]
                have hflight : ¬s.ledger.Flies e.tag := fun h => hwait ⟨hstop, (tagInFlight_ledger hs.flight).2 h⟩
                exact reviveStop_lawful hs r he hstop hflight hending
              · simp only [hstop, if_false]
                exact reviveOwed_lawful hs r he ⟨hending, hstop⟩
            · exact hs
  unfold State.answerRequest
  split
  · rename_i heq
    rw [heq] at hhandled
    exact hhandled
  · exact hhandled

/-! ## Moves that change many entries, and the BOW -/

/-- Every entry changed in a way that the laws do not speak of. -/
theorem map_lawful {t : State} (hs : s.ledger.Lawful) {f : RosterEntry → RosterEntry}
    (hledger : t.ledger = { s.ledger with nrs := t.nrs }) (hroster : t.nrs.roster = s.nrs.roster.map f)
    (hnext : t.nrs.nextTag = s.nrs.nextTag) (hwaiting : t.nrs.waiting = s.nrs.waiting)
    (hseat : ∀ e, (f e).seat = e.seat) (hstate : ∀ e, (f e).state = e.state) (hqueued : ∀ e, (f e).queued = e.queued)
    (hfits : ∀ e, e.Fits → (f e).Fits) : t.ledger.Lawful := by
  have htag : ∀ e, (f e).tag = e.tag := fun e => congrArg (·.1) (hseat e)
  have howed : ∀ e, (f e).Owed ↔ e.Owed := fun e => by unfold RosterEntry.Owed; rw [hstate, hqueued]
  have hshrinks : s.nrs.Shrinks t.nrs :=
    .map hseat (fun e => by simp [RosterEntry.active, hstate]) hnext hroster
  have hnamed : t.nrs.roster.filterMap (·.named) = s.nrs.roster.filterMap (·.named) := by
    rw [hroster, List.filterMap_map]
    exact List.filterMap_congr fun e _ => by simp [RosterEntry.named, hqueued, htag]
  have hcount : ∀ k : Slot, t.nrs.count k = s.nrs.count k := by
    intro k
    rw [NoteRoster.count_eq, NoteRoster.count_eq, hroster, List.countP_map]
    refine List.countP_congr fun e _ => ?_
    simp [RosterEntry.active, hstate, show (f e).slot = e.slot from congrArg (fun x => x.2.1) (hseat e)]
  rw [hledger]
  refine ⟨⟨hshrinks.lawful hs.books.lawful, fun e he => ?_, ?_, hs.books.bows,
    fun k => (hs.books.counts k).trans (hcount k).symm⟩, ⟨hs.flight.head, fun hfault e he hend => ?_, fun g hg => ?_,
    fun hw => hs.flight.waits (show s.nrs.waiting.isSome = true from hwaiting ▸ hw)⟩, fun hloading => ?_, hs.fault⟩
  · obtain ⟨x, hx, rfl⟩ := List.mem_map.1 (hroster ▸ he)
    exact hfits x (hs.books.fits x hx)
  · rw [hnamed]
    exact hs.books.queued
  · obtain ⟨x, hx, rfl⟩ := List.mem_map.1 (hroster ▸ he)
    rw [htag]
    exact hs.flight.owed hfault x hx ((howed x).1 hend)
  · obtain ⟨x, hx, hxtag, hend⟩ := hs.flight.withdraws g hg
    exact ⟨f x, hroster ▸ List.mem_map_of_mem hx, by rw [htag]; exact hxtag, (howed x).2 hend⟩
  · obtain ⟨h1, h2⟩ := hs.empty hloading
    have h1 : s.nrs.roster = [] := h1
    exact ⟨by rw [hroster, h1]; rfl, hwaiting.trans h2⟩

/-- A BOW names no entry. -/
theorem filterMap_named_withoutBow (q : List NoteFrame) :
    (q.filter (!·.isBow)).filterMap (·.named) = q.filterMap (·.named) := by
  induction q with
  | nil => rfl
  | cons f q ih => cases f <;> simpa [NoteFrame.isBow, NoteFrame.named, NoteFrame.tag?] using ih

theorem withdrawBow_lawful (hs : s.ledger.Lawful) (h : s.bowInFlight = false) : s.withdrawBow.ledger.Lawful := by
  have hflight : ∀ f w, s.ledger.flight = some (.note f, w) → (!f.isBow) = true := by
    intro f w hf
    obtain ⟨g, hg, hgf⟩ := hs.flight.head _ hf
    obtain rfl : f = g := by simpa using hgf
    obtain ⟨a, htx, hsource, -⟩ := headFlight_eq_some.1 hf
    have hq := queueInFlight_iff.2 ⟨a, htx, hsource⟩
    simp only [State.ledger, List.head?_map, Option.map_eq_some_iff] at hg
    obtain ⟨q, hq', rfl⟩ := hg
    unfold State.bowInFlight at h
    cases hqueue : s.lkc.noteQueue with
    | nil => simp [hqueue] at hq'
    | cons x rest =>
      obtain rfl : x = q := by simpa [hqueue] using hq'
      simpa [hq, hqueue] using h
  have hnamed := filterMap_named_withoutBow s.ledger.queue
  rw [withdrawBow_ledger]
  exact ⟨⟨hs.books.lawful, hs.books.fits, hnamed.symm ▸ hs.books.queued, bows_filter_le hs.books.bows _,
    hs.books.counts⟩, hs.flight.quiet rfl rfl (hs.flight.head_filter hflight) (fun _ _ => Iff.rfl) id, hs.empty, hs.fault⟩

theorem bow_lawful (hs : s.ledger.Lawful) (d : Direction) (mask : SlotMask)
    (h : ∀ q ∈ s.lkc.noteQueue, q.frame.isBow = false) : (s.enqueue (.bow d mask)).ledger.Lawful := by
  have hnone : s.ledger.queue.filter (·.isBow) = [] := by
    rw [List.filter_eq_nil_iff]
    intro f hf
    obtain ⟨q, hq, rfl⟩ := List.mem_map.1 hf
    simp [h q hq]
  rw [enqueue_ledger]
  refine ⟨⟨hs.books.lawful, hs.books.fits, ?_, ?_, hs.books.counts⟩,
    hs.flight.quiet rfl rfl (fun _ f hf => Ledger.head?_append_some hf) (fun _ _ => Iff.rfl) id, hs.empty, hs.fault⟩
  · rw [List.filterMap_append]
    simpa [NoteFrame.named, NoteFrame.tag?] using hs.books.queued
  · rw [List.filter_append, hnone]
    exact List.length_filter_le _ _

theorem refreshEntry_lawful (hs : s.ledger.Lawful) {e : RosterEntry} (he : e ∈ s.nrs.roster) :
    (s.refreshEntry e).ledger.Lawful ∧
      ∀ x ∈ s.nrs.roster, x.tag ≠ e.tag → x ∈ (s.refreshEntry e).nrs.roster := by
  unfold State.refreshEntry
  split
  · rename_i h
    obtain ⟨hstate, hnone⟩ := h
    obtain ⟨l₁, l₂, hsplit, hne⟩ := hs.books.lawful.split he
    have hsplit : s.nrs.roster = l₁ ++ e :: l₂ := hsplit
    have hfits := hs.books.fits e he
    have hroster := mapEntry_split hsplit hne fun e => { e with queued := .refreshStart }
    have hcount := count_split_same (n := s.nrs)
      (m := (s.mapEntry e.tag fun e => { e with queued := .refreshStart }).nrs) hsplit hroster rfl rfl
    refine ⟨?_, fun x hx htag => ?_⟩
    · dsimp only
      rw [enqueue_ledger]
      refine hs.replace hsplit (some { e with queued := .refreshStart }) hroster rfl rfl rfl rfl rfl
        (fun y hy => Option.some.inj hy ▸ rfl) (fun y hy => Option.some.inj hy ▸ ?_)
        (RosterEntry.not_owed_of_active (by simp [hstate]))
        (fun y hy => Option.some.inj hy ▸ RosterEntry.not_owed_of_active (by simp [hstate]))
        ?_ (bows_append hs.books.bows rfl) (fun _ f hf => Ledger.head?_append_some hf)
        ((hs.books.counts _).trans (hcount _).symm) (fun _ _ => rfl)
      · obtain ⟨-, -, -, hend, hdeadline⟩ := hfits
        exact ⟨by simp [hstate], by simp, by simp, hend, hdeadline⟩
      · exact Ledger.queued_append (hs.books.around hsplit) (by simp [RosterEntry.named, hnone]) rfl
    · have hx : x ∈ l₁ ++ { e with queued := .refreshStart } :: l₂ := by
        rw [hsplit] at hx
        simp only [List.mem_append, List.mem_cons] at hx ⊢
        rcases hx with hx | rfl | hx
        · exact .inl hx
        · exact absurd rfl htag
        · exact .inr (.inr hx)
      exact hroster ▸ hx
  · exact ⟨hs, fun x hx _ => hx⟩

theorem refresh_lawful (hs : s.ledger.Lawful) : s.refresh.ledger.Lawful := by
  have hfold : ∀ (l : List RosterEntry) (t : State), l.Pairwise (·.tag ≠ ·.tag) → (∀ e ∈ l, e ∈ t.nrs.roster) →
      t.ledger.Lawful → (l.foldl State.refreshEntry t).ledger.Lawful := by
    intro l
    induction l with
    | nil => exact fun t _ _ ht => ht
    | cons e l ih =>
      intro t hpairwise hmem ht
      obtain ⟨hne, hrest⟩ := List.pairwise_cons.1 hpairwise
      obtain ⟨hlawful, hkept⟩ := refreshEntry_lawful ht (hmem e List.mem_cons_self)
      exact ih _ hrest (fun x hx => hkept x (hmem x (List.mem_cons_of_mem _ hx)) (hne x hx).symm) hlawful
  obtain ⟨-, -, -, hpairwise⟩ := hs.books.lawful
  exact hfold _ s (hpairwise.imp fun h => h.1) (fun _ he => he) hs

end State

/-- Each move of the note path out of LOADING keeps the laws of the notes. -/
theorem NoteMove.keeps_notes {s t : State} (h : NoteMove s t) (hloading : s.stc.station ≠ .loading)
    (hs : s.ledger.Lawful) : t.ledger.Lawful := by
  cases h with
  | unplaced | misses | overflow | plu | append | drop => exact hs
  | release tag =>
    exact State.map_lawful hs (f := fun e => if e.tag = tag then { e with holders := e.holders - 1 } else e) rfl rfl rfl
      rfl (fun e => by split <;> rfl) (fun e => by split <;> rfl) (fun e => by split <;> rfl)
      (fun e he => by split <;> exact he)
  | ending tag a => exact State.endEntry_lawful hs tag a
  | request r => exact State.answerRequest_lawful hs hloading r
  | turnMark =>
    exact State.map_lawful hs (f := fun e => { e with soundingAtTurn := e.state == .sounding }) rfl rfl rfl rfl
      (fun _ => rfl) (fun _ => rfl) (fun _ => rfl) (fun _ he => he)
  | withdrawBow h => exact State.withdrawBow_lawful hs h
  | bow d mask h => exact State.bow_lawful hs d mask h
  | refresh => exact State.refresh_lawful hs
  | restart =>
    rw [State.restartLevels_ledger]
    exact hs
  | answerOwed =>
    exact State.map_lawful hs (f := id) rfl (by simp) rfl rfl (fun _ => rfl) (fun _ => rfl) (fun _ => rfl)
      (fun _ he => he)
  | settle =>
    exact ⟨⟨hs.books.lawful, hs.books.fits, hs.books.queued, hs.books.bows, hs.books.counts⟩,
      ⟨hs.flight.head, hs.flight.owed, hs.flight.withdraws, fun h => Bool.noConfusion h⟩,
      fun h => absurd h hloading, hs.fault⟩

theorem NoteMoves.keeps_notes {s t : State} (h : NoteMoves s t) (hloading : s.stc.station ≠ .loading)
    (hs : s.ledger.Lawful) : t.ledger.Lawful := by
  induction h with
  | refl => exact hs
  | tail hmoves hmove ih =>
    exact hmove.keeps_notes (by rw [NoteMoves.notesOnly hmoves |>.station_eq]; exact hloading) ih

end Sys2Proof.Machine
end

section
/-! PROOFS. Each move of a step keeps the laws of the notes: what the end of an attempt of the queue's head does to the
ledger, and the moves of the other blocks. -/

namespace Sys2Proof.Machine

/-! ## The head of the queue after its attempt -/

theorem Ledger.Books.around_tail {l : Ledger} (h : l.Books) {e : RosterEntry} {l₁ l₂ : List RosterEntry}
    (hsplit : l.nrs.roster = l₁ ++ e :: l₂) {f : NoteFrame} {rest : List NoteFrame} (hqueue : l.queue = f :: rest)
    (htag : f.tag? = some e.tag) (hqueued : f.queuedAs = e.queued) :
    (rest.filterMap (·.named)).Perm (l₁.filterMap (·.named) ++ l₂.filterMap (·.named)) := by
  have hperm := h.around hsplit
  have hne : e.queued ≠ .noFrame := hqueued ▸ NoteFrame.queuedAs_ne_noFrame htag
  rw [hqueue, List.filterMap_cons, NoteFrame.named_of_tag htag, RosterEntry.named_of_ne hne, hqueued] at hperm
  exact (hperm.trans List.perm_middle).cons_inv

/-- The entry of a frame in the queue. -/
theorem Ledger.Books.entry_of_frame {l : Ledger} (h : l.Books) {f : NoteFrame} (hf : f ∈ l.queue) {tag : Nat}
    (htag : f.tag? = some tag) : ∃ e ∈ l.nrs.roster, e.tag = tag ∧ e.queued = f.queuedAs := by
  have hmem : (tag, f.queuedAs) ∈ l.nrs.roster.filterMap (·.named) :=
    h.queued.mem_iff.1 (List.mem_filterMap.2 ⟨f, hf, NoteFrame.named_of_tag htag⟩)
  obtain ⟨e, he, hnamed⟩ := List.mem_filterMap.1 hmem
  obtain ⟨h1, h2, -⟩ := RosterEntry.named_tag hnamed
  exact ⟨e, he, h1, h2⟩

/-- The frame in flight has landed: its entry is settled, no end is owed any more, and no request waits. -/
theorem Ledger.Lawful.landed {l m : Ledger} (h : l.Lawful) {e : RosterEntry} {l₁ l₂ : List RosterEntry}
    (hfault : l.station ≠ .fault) (hsplit : l.nrs.roster = l₁ ++ e :: l₂) (hne : ∀ x ∈ l₁ ++ l₂, x.tag ≠ e.tag)
    {f : NoteFrame} {w : Bool} (hflight : l.flight = some (.note f, w)) (htag : f.tag? = some e.tag)
    (x : Option RosterEntry) (hroster : m.nrs.roster = l₁ ++ (x.toList ++ l₂)) (hnext : m.nrs.nextTag = l.nrs.nextTag)
    (hwaiting : m.nrs.waiting = none) (hstation : m.station = l.station) (hlanded : m.flight = none)
    (hseat : ∀ y, x = some y → y.seat = e.seat) (hfits : ∀ y, x = some y → y.Fits) (hx : ∀ y, x = some y → ¬y.Owed)
    (hactive : ∀ y, x = some y → y.active = e.active) (hfreed : x = none → e.active = false)
    (hqueue : (m.queue.filterMap (·.named)).Perm
      (l₁.filterMap (·.named) ++ ((x.bind (·.named)).toList ++ l₂.filterMap (·.named))))
    (hbows : (m.queue.filter (·.isBow)).length ≤ 1) (hcounts : m.slotCount = l.slotCount) : m.Lawful := by
  have hcount : m.nrs.count e.slot = l.nrs.count e.slot := by
    rw [NoteRoster.count_eq, NoteRoster.count_eq, hroster, hsplit]
    cases x with
    | none => simp [hfreed rfl]
    | some y => simp [List.countP_cons, hactive y rfl, show y.slot = e.slot from congrArg (fun p => p.2.1) (hseat y rfl)]
  have hmem : e ∈ l.nrs.roster := hsplit ▸ by simp
  refine ⟨h.books.replace hsplit x hroster hnext hseat hfits hqueue hbows (by rw [hcounts, hcount, h.books.counts])
      (fun k _ => by rw [hcounts]), ⟨by simp [hlanded], fun _ d hd hend => ?_, by simp [hlanded], by simp [hwaiting]⟩,
    fun hloading => absurd (hstation ▸ hloading) (h.not_loading hmem), fun h => absurd (hstation ▸ h) hfault⟩
  exfalso
  have hother : d ∈ l₁ ++ l₂ := by
    rw [hroster] at hd
    cases x with
    | none => simpa using hd
    | some y =>
      simp only [Option.toList_some, List.cons_append, List.nil_append, List.mem_append, List.mem_cons] at hd
      rcases hd with hd | rfl | hd
      · exact List.mem_append_left _ hd
      · exact absurd hend (hx d rfl)
      · exact List.mem_append_right _ hd
  have hold : d ∈ l.nrs.roster := by
    rw [hsplit]
    simp only [List.mem_append, List.mem_cons] at hother ⊢
    tauto
  obtain ⟨g, hg, hgtag⟩ := h.flight.owed hfault d hold hend
  rw [hflight] at hg
  obtain ⟨rfl, -⟩ : f = g ∧ w = true := by simpa using hg
  exact hne d hother (Option.some.inj (hgtag.symm.trans htag))

/-- A BOW has landed: it is in the queue or not, and no end was owed. -/
theorem Ledger.Lawful.landedBow {l m : Ledger} (h : l.Lawful) (hfault : l.station ≠ .fault) {f : NoteFrame} {w : Bool}
    (hflight : l.flight = some (.note f, w)) (htag : f.tag? = none) (hnrs : m.nrs = l.nrs)
    (hstation : m.station = l.station) (hlanded : m.flight = none)
    (hqueue : m.queue.filterMap (·.named) = l.queue.filterMap (·.named))
    (hbows : (m.queue.filter (·.isBow)).length ≤ 1) (hcounts : m.slotCount = l.slotCount) : m.Lawful := by
  have hstop : f.queuedAs ≠ .stop := by cases f <;> simp_all [NoteFrame.tag?, NoteFrame.queuedAs]
  refine ⟨⟨hnrs ▸ h.books.lawful, hnrs ▸ h.books.fits, by rw [hqueue, hnrs]; exact h.books.queued, hbows,
    by rw [hcounts, hnrs]; exact h.books.counts⟩, ⟨by simp [hlanded], fun _ d hd hend => ?_, by simp [hlanded], fun hw _ => ?_⟩,
    by rw [hstation, hnrs]; exact h.empty, fun h => absurd (hstation ▸ h) hfault⟩
  · obtain ⟨g, hg, hgtag⟩ := h.flight.owed hfault d (hnrs ▸ hd) hend
    rw [hflight] at hg
    obtain ⟨rfl, -⟩ : f = g ∧ w = true := by simpa using hg
    rw [htag] at hgtag
    cases hgtag
  · obtain ⟨g, w', hg, hgstop⟩ := h.flight.waits (hnrs ▸ hw) hfault
    rw [hflight] at hg
    obtain ⟨rfl, -⟩ : f = g ∧ w = w' := by simpa using hg
    exact absurd hgstop hstop

namespace State

variable {s u : State} {f : NoteFrame} {rest : List NoteFrame} {w : Bool}

/-- Where the frame in flight is no NOTE END no request waits. -/
theorem waiting_of_flight (hs : s.ledger.Lawful) (hfault : s.stc.station ≠ .fault)
    (hflight : s.ledger.flight = some (.note f, w)) (hstop : f.queuedAs ≠ .stop) : s.nrs.waiting = none := by
  by_contra hne
  obtain ⟨g, w', hg, hgstop⟩ := hs.flight.waits (Option.isSome_iff_ne_none.2 hne) hfault
  rw [hflight] at hg
  obtain ⟨rfl, -⟩ : f = g ∧ w = w' := by simpa using hg
  exact hstop hgstop

theorem payOwedBow_ledger (s : State) : s.payOwedBow.ledger = s.ledger ∨
    ∃ d mask, s.payOwedBow.ledger = { s.ledger with queue := s.ledger.queue ++ [.bow d mask] } := by
  unfold State.payOwedBow
  split
  · exact .inl rfl
  · rename_i d mask _
    exact .inr ⟨d, mask, s.enqueue_ledger _⟩

theorem taken_ledger (s : State) : s.taken.ledger = { s.ledger with nrs := s.taken.nrs } := by
  unfold State.taken
  split <;> rfl

theorem recordDrop_ledger (s : State) (o : AttemptOutcome) : (s.recordDrop o).ledger = s.ledger := by
  unfold State.recordDrop
  split <;> rfl

/-- A START or REFRESH-START gone out: its entry is SOUNDING, or its owed NOTE END is queued. -/
theorem startGoneOut_lawful (hs : s.ledger.Lawful) (hfault : s.stc.station ≠ .fault) (hqueue : s.ledger.queue = f :: rest)
    (hflight : s.ledger.flight = some (.note f, w)) {tag : Nat} (htag : f.tag? = some tag) (hstop : f.queuedAs ≠ .stop)
    (hu : u.ledger = { s.ledger with queue := rest, flight := none, free := true }) :
    (u.startGoneOut tag).ledger.Lawful := by
  have hnrs : u.nrs = s.nrs := congrArg Ledger.nrs hu
  have hnext : u.nrs.nextTag = s.nrs.nextTag := by rw [hnrs]
  have hwaiting : u.nrs.waiting = none := by rw [hnrs, waiting_of_flight hs hfault hflight hstop]
  obtain ⟨e, he, rfl, hqueued⟩ := hs.books.entry_of_frame (hqueue ▸ List.mem_cons_self) htag
  obtain ⟨l₁, l₂, hsplit, hne⟩ := hs.books.lawful.split he
  have hentry : u.entry? e.tag = some e := by
    unfold State.entry?
    rw [hnrs]
    exact hs.books.lawful.find he
  have hrest := hs.books.around_tail hsplit hqueue htag hqueued.symm
  have hbows : (rest.filter (·.isBow)).length ≤ 1 := by
    refine le_trans ?_ hs.books.bows
    rw [hqueue]
    exact (((List.sublist_cons_self f rest).filter _)).length_le
  have husplit : u.nrs.roster = l₁ ++ e :: l₂ := hnrs ▸ hsplit
  unfold State.startGoneOut
  rw [hentry]
  dsimp only
  split
  · rename_i hactive
    have hstate : e.state ≠ .ending := by simpa [RosterEntry.active] using hactive
    have hroster := mapEntry_split husplit hne fun e => { e with state := .sounding, queued := .noFrame }
    obtain ⟨-, -, -, hend, hdeadline⟩ := hs.books.fits e he
    have hledger : (u.mapEntry e.tag fun e => { e with state := .sounding, queued := .noFrame }).ledger =
        { u.ledger with nrs := (u.mapEntry e.tag fun e => { e with state := .sounding, queued := .noFrame }).nrs } := rfl
    rw [hledger, hu]
    refine hs.landed hfault hsplit hne hflight htag (some { e with state := .sounding, queued := .noFrame }) hroster
      hnext hwaiting rfl rfl
      (fun y hy => Option.some.inj hy ▸ rfl) (fun y hy => Option.some.inj hy ▸ ?_)
      (fun y hy => Option.some.inj hy ▸ RosterEntry.not_owed_of_active (by simp))
      (fun y hy => Option.some.inj hy ▸ hactive.symm) (fun h => by cases h) hrest hbows rfl
    simp [RosterEntry.Fits, hdeadline, hstate]
    simpa [hstate] using hend
  · rename_i hactive
    have hstate : e.state = .ending := by simpa [RosterEntry.active] using hactive
    have hroster := mapEntry_split husplit hne fun e => { e with queued := .stop }
    obtain ⟨-, -, -, hend, hdeadline⟩ := hs.books.fits e he
    rw [queueStop_ledger]
    have hledger : (u.mapEntry e.tag fun e => { e with queued := .stop }).ledger =
        { u.ledger with nrs := (u.mapEntry e.tag fun e => { e with queued := .stop }).nrs } := rfl
    rw [hledger, hu]
    refine hs.landed hfault hsplit hne hflight htag (some { e with queued := .stop }) hroster
      hnext hwaiting rfl rfl
      (fun y hy => Option.some.inj hy ▸ rfl) (fun y hy => Option.some.inj hy ▸ ?_)
      (fun y hy => Option.some.inj hy ▸ RosterEntry.not_owed_of_stop rfl)
      (fun y hy => Option.some.inj hy ▸ rfl) (fun h => by cases h) ?_ (bows_append hbows rfl) rfl
    · exact ⟨by simp [hstate], by simp [hstate], by simp, hend, hdeadline⟩
    · exact Ledger.queued_append (e := { e with queued := .noFrame }) (by simpa [RosterEntry.named] using hrest)
        (by simp [RosterEntry.named]) rfl

/-- The frames behind the head hold no more than one BOW, and none where the head is one. -/
theorem bows_tail (hs : s.ledger.Lawful) (hqueue : s.ledger.queue = f :: rest) :
    (rest.filter (·.isBow)).length ≤ 1 ∧ (f.isBow = true → rest.filter (·.isBow) = []) := by
  have h := hs.books.bows
  rw [hqueue, List.filter_cons] at h
  split at h
  · have hnil : (rest.filter (·.isBow)).length = 0 := by
      rw [List.length_cons] at h
      omega
    exact ⟨by omega, fun _ => List.length_eq_zero_iff.1 hnil⟩
  · rename_i hbow
    exact ⟨h, fun hf => absurd hf hbow⟩

/-- The frame in flight gone out: what its entry does at once keeps the laws of the notes. -/
theorem frameOut_lawful (hs : s.ledger.Lawful) (hfault : s.stc.station ≠ .fault) (hqueue : s.ledger.queue = f :: rest)
    (hflight : s.ledger.flight = some (.note f, w))
    (hu : u.ledger = { s.ledger with queue := rest, flight := none, free := true }) : (u.frameOut f).ledger.Lawful := by
  obtain ⟨hbows, hbow⟩ := bows_tail hs hqueue
  have hnrs : u.nrs = s.nrs := congrArg Ledger.nrs hu
  cases f with
  | start tag => exact startGoneOut_lawful hs hfault hqueue hflight rfl (by simp [NoteFrame.queuedAs]) hu
  | refreshStart tag => exact startGoneOut_lawful hs hfault hqueue hflight rfl (by simp [NoteFrame.queuedAs]) hu
  | stop tag a =>
    obtain ⟨e, he, rfl, hqueued⟩ := hs.books.entry_of_frame (hqueue ▸ List.mem_cons_self) (tag := tag) rfl
    obtain ⟨l₁, l₂, hsplit, hne⟩ := hs.books.lawful.split he
    have hfree := freeEntry_split (s := u) (hnrs ▸ hsplit) hne
    obtain ⟨htaken, hnext, hwaiting⟩ := (u.freeEntry e.tag).taken_roster
    have hending : e.state = .ending := by
      obtain ⟨h1, h2, -⟩ := hs.books.fits e he
      cases hstate : e.state with
      | ending => rfl
      | starting => rw [h1 hstate] at hqueued; cases hqueued
      | sounding => rcases h2 hstate with h | h <;> rw [h] at hqueued <;> cases hqueued
    show (u.freeEntry e.tag).taken.ledger.Lawful
    have hledger : (u.freeEntry e.tag).ledger = { u.ledger with nrs := (u.freeEntry e.tag).nrs } := rfl
    rw [taken_ledger, hledger, hu]
    exact hs.landed hfault hsplit hne hflight rfl none (htaken.trans hfree) (hnext.trans (show u.nrs.nextTag = s.nrs.nextTag by rw [hnrs])) hwaiting
      rfl rfl (by simp) (by simp) (by simp) (by simp) (fun _ => by simp [RosterEntry.active, hending])
      (hs.books.around_tail hsplit hqueue rfl hqueued.symm) hbows rfl
  | bow d mask =>
    have hnamed : rest.filterMap (·.named) = s.ledger.queue.filterMap (·.named) := by
      rw [hqueue]
      rfl
    rcases u.payOwedBow_ledger with h | ⟨d', mask', h⟩ <;>
      rw [show u.frameOut (.bow d mask) = u.payOwedBow from rfl, h, hu]
    · exact hs.landedBow hfault hflight rfl rfl rfl rfl hnamed hbows rfl
    · refine hs.landedBow hfault hflight rfl rfl rfl rfl ?_ ?_ rfl
      · rw [List.filterMap_append, hnamed]
        simp [NoteFrame.named, NoteFrame.tag?]
      · rw [List.filter_append, hbow rfl]
        exact List.length_filter_le _ _

/-- A withdrawal held against the frame in flight is done: the entry is freed, or its owed NOTE END is queued. -/
theorem frameBack_withdrawn (hs : s.ledger.Lawful) (hfault : s.stc.station ≠ .fault) (hqueue : s.ledger.queue = f :: rest)
    (hflight : s.ledger.flight = some (.note f, true))
    (hu : u.ledger = { s.ledger with queue := rest, flight := none, free := true }) : (u.frameBack f).ledger.Lawful := by
  obtain ⟨hbows, -⟩ := bows_tail hs hqueue
  have hnrs : u.nrs = s.nrs := congrArg Ledger.nrs hu
  obtain ⟨e, he, htag, howed⟩ := hs.flight.withdraws f hflight
  obtain ⟨e', he', htag', hqueued⟩ := hs.books.entry_of_frame (hqueue ▸ List.mem_cons_self) htag
  obtain rfl := hs.books.eq_of_tag he he' htag'
  obtain ⟨l₁, l₂, hsplit, hne⟩ := hs.books.lawful.split he
  have hentry : u.entry? e'.tag = some e' := by
    unfold State.entry?
    rw [hnrs]
    exact hs.books.lawful.find he
  have hinactive : e'.active = false := by simp [RosterEntry.active, howed.1]
  have hfilter := hs.books.around_filter hsplit hne
  rw [hqueue, List.filter_cons, htag] at hfilter
  simp only [bne_self_eq_false, Bool.false_eq_true, if_false] at hfilter
  have husplit : u.nrs.roster = l₁ ++ e' :: l₂ := hnrs ▸ hsplit
  have hnext : u.nrs.nextTag = s.nrs.nextTag := by rw [hnrs]
  have hwaiting : f.queuedAs ≠ .stop → u.nrs.waiting = none := fun h => by
    rw [hnrs, waiting_of_flight hs hfault hflight h]
  cases f with
  | start tag k p v a =>
    obtain rfl : tag = e'.tag := by simpa [NoteFrame.tag?] using htag
    have hback : u.frameBack (.start e'.tag k p v a) = (u.withdrawTag e'.tag).freeEntry e'.tag := by
      simp [State.frameBack, State.noteNotGoneOut, hentry, hinactive]
    have hledger : ((u.withdrawTag e'.tag).freeEntry e'.tag).ledger =
        { (u.withdrawTag e'.tag).ledger with nrs := ((u.withdrawTag e'.tag).freeEntry e'.tag).nrs } := rfl
    rw [hback, hledger, withdrawTag_ledger, hu]
    exact hs.landed hfault hsplit hne hflight htag none (freeEntry_split (s := u.withdrawTag e'.tag) husplit hne) hnext
      (hwaiting (by simp [NoteFrame.queuedAs])) rfl rfl (by simp) (by simp) (by simp) (by simp) (fun _ => hinactive) hfilter
      (bows_filter_le hbows _) rfl
  | refreshStart tag k p v =>
    obtain rfl : tag = e'.tag := by simpa [NoteFrame.tag?] using htag
    have hback : u.frameBack (.refreshStart e'.tag k p v) =
        (u.withdrawTag e'.tag).queueStop e'.tag (e'.endArticulation.getD .normal) := by
      simp [State.frameBack, State.noteNotGoneOut, hentry, hinactive]
    have hroster := mapEntry_split (s := u.withdrawTag e'.tag) husplit hne fun e => { e with queued := .stop }
    obtain ⟨-, -, -, hend, hdeadline⟩ := hs.books.fits e' he
    have hledger : ((u.withdrawTag e'.tag).mapEntry e'.tag fun e => { e with queued := .stop }).ledger =
        { (u.withdrawTag e'.tag).ledger with
          nrs := ((u.withdrawTag e'.tag).mapEntry e'.tag fun e => { e with queued := .stop }).nrs } := rfl
    rw [hback, queueStop_ledger, hledger, withdrawTag_ledger, hu]
    refine hs.landed hfault hsplit hne hflight htag (some { e' with queued := .stop }) hroster hnext
      (hwaiting (by simp [NoteFrame.queuedAs])) rfl rfl
      (fun y hy => Option.some.inj hy ▸ rfl) (fun y hy => Option.some.inj hy ▸ ?_)
      (fun y hy => Option.some.inj hy ▸ RosterEntry.not_owed_of_stop rfl)
      (fun y hy => Option.some.inj hy ▸ rfl) (fun h => by cases h) ?_ (bows_append (bows_filter_le hbows _) rfl) rfl
    · exact ⟨by simp [howed.1], by simp [howed.1], by simp, hend, hdeadline⟩
    · exact Ledger.queued_append (e := { e' with queued := .noFrame }) (by simpa [RosterEntry.named] using hfilter)
        (by simp [RosterEntry.named]) rfl
  | stop tag a => exact absurd hqueued howed.2
  | bow d mask => cases htag

/-- A frame that has not gone out keeps its place: no end was owed for it, and a request that waited is taken up again. -/
theorem frameBack_kept (hs : s.ledger.Lawful) (hfault : s.stc.station ≠ .fault) (hqueue : s.ledger.queue = f :: rest)
    (hflight : s.ledger.flight = some (.note f, false))
    (hu : u.ledger = { s.ledger with flight := none, free := true }) : (u.frameBack f).ledger.Lawful := by
  have hnrs : u.nrs = s.nrs := congrArg Ledger.nrs hu
  have hnotOwed : ∀ e ∈ s.nrs.roster, ¬e.Owed := by
    intro e he howed
    obtain ⟨g, hg, -⟩ := hs.flight.owed hfault e he howed
    rw [hflight] at hg
    simp at hg
  have hsame : ∀ (v : State) {tag : Nat}, f.tag? = some tag → v.nrs.waiting = none →
      v.ledger = { s.ledger with nrs := v.nrs, flight := none, free := true } → v.nrs.roster = s.nrs.roster →
      v.nrs.nextTag = s.nrs.nextTag → v.ledger.Lawful := by
    intro v tag htag hwaiting hv hroster hnext
    obtain ⟨e, he, rfl, hqueued⟩ := hs.books.entry_of_frame (hqueue ▸ List.mem_cons_self) htag
    obtain ⟨l₁, l₂, hsplit, hne⟩ := hs.books.lawful.split he
    rw [hv]
    exact hs.landed hfault hsplit hne hflight htag (some e) (hroster.trans hsplit) hnext hwaiting rfl rfl
      (fun y hy => Option.some.inj hy ▸ rfl) (fun y hy => Option.some.inj hy ▸ hs.books.fits e he)
      (fun y hy => Option.some.inj hy ▸ hnotOwed e he) (fun y hy => Option.some.inj hy ▸ rfl) (fun h => by cases h)
      (hs.books.around hsplit) hs.books.bows rfl
  have hstart : ∀ {tag : Nat}, f.tag? = some tag → f.queuedAs ≠ .stop →
      (∀ e, u.entry? tag = some e → e.active = true) ∧ u.ledger.Lawful := by
    intro tag htag hstop
    refine ⟨fun e hentry => ?_, hsame u htag (by rw [hnrs, waiting_of_flight hs hfault hflight hstop]) (by rw [hu, hnrs]; rfl)
      (by rw [hnrs]) (by rw [hnrs])⟩
    obtain ⟨hmem, rfl⟩ := State.entry?_mem hentry
    rw [hnrs] at hmem
    obtain ⟨e', he', htag', hqueued⟩ := hs.books.entry_of_frame (hqueue ▸ List.mem_cons_self) htag
    obtain rfl := hs.books.eq_of_tag hmem he' htag'
    by_contra hactive
    exact hnotOwed e' hmem ⟨by simpa [RosterEntry.active] using hactive, hqueued ▸ hstop⟩
  cases f with
  | start tag k p v a =>
    obtain ⟨hactive, hlawful⟩ := hstart rfl (by simp [NoteFrame.queuedAs])
    have hback : u.frameBack (.start tag k p v a) = u := by
      unfold State.frameBack State.noteNotGoneOut
      dsimp only
      split
      · rfl
      · rename_i e he
        simp [hactive e he]
    rw [hback]
    exact hlawful
  | refreshStart tag k p v =>
    obtain ⟨hactive, hlawful⟩ := hstart rfl (by simp [NoteFrame.queuedAs])
    have hback : u.frameBack (.refreshStart tag k p v) = u := by
      unfold State.frameBack State.noteNotGoneOut
      dsimp only
      split
      · rfl
      · rename_i e he
        simp [hactive e he]
    rw [hback]
    exact hlawful
  | stop tag a =>
    obtain ⟨hroster, hnext, hwaiting⟩ := u.taken_roster
    exact hsame u.taken rfl hwaiting (by rw [taken_ledger, hu]) (hroster.trans (by rw [hnrs])) (hnext.trans (by rw [hnrs]))
  | bow d mask =>
    have hback : u.frameBack (.bow d mask) = if u.plu.owedBow.isSome then u.withdrawBow.payOwedBow else u := rfl
    have hnamed : (s.ledger.queue.filter (!·.isBow)).filterMap (·.named) = s.ledger.queue.filterMap (·.named) :=
      filterMap_named_withoutBow _
    have hnone : (s.ledger.queue.filter (!·.isBow)).filter (·.isBow) = [] := by
      simp
    rw [hback]
    split
    · rcases u.withdrawBow.payOwedBow_ledger with h | ⟨d', mask', h⟩ <;> rw [h, withdrawBow_ledger, hu]
      · exact hs.landedBow hfault hflight rfl rfl rfl rfl hnamed (by rw [hnone]; simp) rfl
      · refine hs.landedBow hfault hflight rfl rfl rfl rfl ?_ ?_ rfl
        · rw [List.filterMap_append, hnamed]
          simp [NoteFrame.named, NoteFrame.tag?]
        · rw [List.filter_append, hnone]
          exact List.length_filter_le _ _
    · rw [hu]
      exact hs.landedBow hfault hflight rfl rfl rfl rfl rfl hs.books.bows rfl

end State

/-- The end of the attempt of the head of the queue, before a waiting request is handled again, keeps the laws of the
notes. -/
theorem State.headEnded_lawful {s : State} (hs : s.ledger.Lawful) {a : Attempt} (htx : s.lkc.tx = some a)
    (hsource : a.source = .queueHead) {q : QueueItem} {rest : List QueueItem} (hqueue : s.lkc.noteQueue = q :: rest)
    (r : AttemptResult) : ((s.freed r).headEnded a r q rest).ledger.Lawful := by
  have hfault : s.stc.station ≠ .fault := fun h => by
    have hfree : s.lkc.tx.isNone = true := hs.fault h
    simp [htx] at hfree
  have hframes : s.ledger.queue = q.frame :: rest.map (·.frame) := by simp [State.ledger, hqueue]
  have hflight : s.ledger.flight = some (.note q.frame, a.withdraw) := by
    have h : s.ledger.flight = some (a.frame, a.withdraw) := headFlight_eq_some.2 ⟨a, htx, hsource, rfl⟩
    obtain ⟨f, hf, hframe⟩ := hs.flight.head _ h
    have hframe : a.frame = .note f := hframe
    rw [hframes, List.head?_cons] at hf
    obtain rfl := Option.some.inj hf
    rw [h, hframe]
  have hrest : ((s.freed r).mapQueue fun _ => rest).ledger =
      { s.ledger with queue := rest.map (·.frame), flight := none, free := true } := rfl
  have hkept : ((s.freed r).mapQueue fun _ => ⟨q.frame, failuresAfter a.failures r⟩ :: rest).ledger =
      { s.ledger with flight := none, free := true } := by
    rw [show s.ledger = { s.ledger with queue := q.frame :: rest.map (·.frame) } by rw [← hframes]]
    rfl
  unfold State.headEnded
  cases outcomeOf a.failures r with
  | unsuccessful =>
    dsimp only
    cases hw : a.withdraw with
    | true => exact frameBack_withdrawn hs hfault hframes (hw ▸ hflight) hrest
    | false => exact frameBack_kept hs hfault hframes (hw ▸ hflight) hkept
  | transmitted => exact frameOut_lawful hs hfault hframes hflight ((recordDrop_ledger _ _).trans hrest)
  | dropped => exact frameOut_lawful hs hfault hframes hflight ((recordDrop_ledger _ _).trans hrest)

/-! ## The moves of a step -/

/-- The transmitter FREE with no frame of the queue in flight: no end is owed, and no request waits. -/
theorem Ledger.Lawful.withoutFlight {l m : Ledger} (h : l.Lawful) (hnone : l.flight = none) (hnrs : m.nrs = l.nrs)
    (hqueue : m.queue = l.queue) (hcounts : m.slotCount = l.slotCount) (hstation : m.station = l.station)
    (hhead : ∀ x, m.flight = some x → ∃ f, m.queue.head? = some f ∧ x.1 = .note f)
    (hwithdraw : ∀ f, m.flight ≠ some (.note f, true)) (hfault : m.station = .fault → m.free = true) : m.Lawful := by
  refine ⟨⟨hnrs ▸ h.books.lawful, hnrs ▸ h.books.fits, by rw [hqueue, hnrs]; exact h.books.queued,
    hqueue ▸ h.books.bows, by rw [hcounts, hnrs]; exact h.books.counts⟩,
    ⟨hhead, fun hf e he hend => ?_, fun f hf => absurd hf (hwithdraw f), fun hw hf => ?_⟩,
    by rw [hstation, hnrs]; exact h.empty, hfault⟩
  · obtain ⟨g, hg, -⟩ := h.flight.owed (hstation ▸ hf) e (hnrs ▸ he) hend
    simp [hnone] at hg
  · obtain ⟨g, w, hg, -⟩ := h.flight.waits (hnrs ▸ hw) (hstation ▸ hf)
    simp [hnone] at hg

/-- The station in another state, neither FAULT nor LOADING, and not in FAULT before. -/
theorem Ledger.Lawful.enters {l : Ledger} (h : l.Lawful) {st : StationState} (hold : l.station ≠ .fault)
    (hloading : st ≠ .loading) (hfault : st ≠ .fault) : Ledger.Lawful { l with station := st } :=
  ⟨⟨h.books.lawful, h.books.fits, h.books.queued, h.books.bows, h.books.counts⟩,
    ⟨h.flight.head, fun _ => h.flight.owed hold, h.flight.withdraws, fun hw _ => h.flight.waits hw hold⟩,
    fun h => absurd h hloading, fun h => absurd h hfault⟩

theorem State.reset_ledger_lawful : State.reset.ledger.Lawful := State.notesLawful_iff.1 State.notesLawful_reset

theorem LinkController.choice_head {l : LinkController} {a : Attempt} (h : l.choice = some a) :
    a.withdraw = false ∧ (a.source = .queueHead → ∃ q, l.noteQueue.head? = some q ∧ a.frame = .note q.frame) := by
  have hattempt : ∀ key b, l.updates.attempt key = some b → b.withdraw = false ∧ b.source ≠ .queueHead := by
    intro key b hb
    obtain ⟨e, -, rfl⟩ := Option.map_eq_some_iff.1 hb
    exact ⟨rfl, by simp [attemptOf]⟩
  unfold LinkController.choice at h
  split at h
  · rename_i b hb
    obtain rfl := Option.some.inj h
    obtain ⟨h1, h2⟩ := hattempt _ _ hb
    exact ⟨h1, fun h => absurd h h2⟩
  · split at h
    · rename_i q rest hqueue
      obtain rfl := Option.some.inj h
      exact ⟨rfl, fun _ => ⟨q, by simp [hqueue], rfl⟩⟩
    · obtain ⟨key, -, hkey⟩ := List.exists_of_findSome?_eq_some h
      obtain ⟨h1, h2⟩ := hattempt _ _ hkey
      exact ⟨h1, fun h => absurd h h2⟩

theorem headFlight_choice {l : LinkController} {a : Attempt} (h : l.choice = some a) :
    (∀ x, headFlight (some a) = some x → ∃ f, (l.noteQueue.map (·.frame)).head? = some f ∧ x.1 = .note f) ∧
      ∀ f, headFlight (some a) ≠ some (.note f, true) := by
  obtain ⟨hwithdraw, hhead⟩ := LinkController.choice_head h
  refine ⟨fun x hx => ?_, fun f hf => ?_⟩
  · obtain ⟨b, hb, hsource, rfl⟩ := headFlight_eq_some.1 hx
    obtain rfl := Option.some.inj hb
    obtain ⟨q, hq, hframe⟩ := hhead hsource
    exact ⟨q.frame, by simp [hq], hframe⟩
  · obtain ⟨b, hb, -, hpair⟩ := headFlight_eq_some.1 hf
    obtain rfl := Option.some.inj hb
    rw [hwithdraw] at hpair
    exact absurd (Prod.ext_iff.1 hpair).2 (by simp)

/-- An empty roster has nothing to trim. -/
theorem State.trimAll_of_empty {s : State} (h : s.nrs.roster = []) : s.trimAll = s := by
  have hslot : ∀ k, s.trimSlot k = s := by
    intro k
    simp [State.trimSlot, NoteRoster.count, h, State.trimOldest]
  unfold State.trimAll
  induction slots with
  | nil => rfl
  | cons k ks ih => rw [List.foldl_cons, hslot, ih]

theorem Move.keeps_notes {s t : State} (h : Move s t) (hs : s.ledger.Lawful) : t.ledger.Lawful := by
  have hworking : s.working = true → s.ledger.station ≠ .fault := fun hw hfault => by
    have hstation : s.stc.station = .fault := hfault
    simp [State.working, hstation] at hw
  cases h with
  | notes hstation h => exact h.keeps_notes hstation hs
  | elapse =>
    unfold State.elapse
    split
    · exact hs
    · exact State.map_lawful hs (f := fun e => { e with deadline := e.deadline.tick }) rfl rfl rfl rfl (fun _ => rfl)
        (fun _ => rfl) (fun _ => rfl) fun e he => by simpa [RosterEntry.Fits] using he
  | resetPin => exact State.reset_ledger_lawful
  | risingEdge h =>
    have hledger : s.risingEdge.ledger = State.reset.ledger := by
      simp [State.risingEdge, h]
      rfl
    exact hledger ▸ State.reset_ledger_lawful
  | fault reason =>
    refine ⟨⟨hs.books.lawful, hs.books.fits, hs.books.queued, hs.books.bows, hs.books.counts⟩,
      ⟨fun x hx => ?_, fun h => absurd rfl h, fun f hf => ?_, fun _ h => absurd rfl h⟩,
      fun h => StationState.noConfusion h, fun _ => rfl⟩
    · cases hx
    · cases hf
  | loading =>
    have hflight : headFlight (s.lkc.tx.map Attempt.carry) = none := by
      cases s.lkc.tx with
      | none => rfl
      | some a => simp [headFlight, Attempt.carry]
    have hledger : s.startLoading.ledger = { State.reset.ledger with free := s.startLoading.lkc.tx.isNone } := by
      unfold State.ledger State.startLoading
      dsimp only
      rw [hflight]
      rfl
    rw [hledger]
    have hreset := State.reset_ledger_lawful
    exact ⟨⟨hreset.books.lawful, hreset.books.fits, hreset.books.queued, hreset.books.bows, hreset.books.counts⟩,
      ⟨hreset.flight.head, hreset.flight.owed, hreset.flight.withdraws, hreset.flight.waits⟩, hreset.empty,
      fun h => StationState.noConfusion h⟩
  | record img h =>
    unfold State.finishLoading
    rw [State.recomputeLevels_ledger]
    exact hs
  | join h hengine =>
    have hledger : s.startJoining.ledger = { s.ledger with station := .joining } := by
      rw [State.startJoining_eq]
      split <;> rfl
    rw [hledger]
    exact hs.enters (fun hf => by have hf : s.stc.station = .fault := hf; rw [h] at hf; cases hf) (by simp) (by simp)
  | station st hw hst =>
    refine hs.enters (hworking hw) ?_ ?_ <;> rcases hst with rfl | rfl <;> simp
  | write key f h =>
    rw [State.writeEntry_ledger]
    exact hs
  | group d level h =>
    unfold State.regrouped
    dsimp only
    split
    · rw [State.recomputeLevels_ledger]
      exact hs
    · exact hs
  | registration n =>
    unfold State.adoptRegistration
    rw [State.recomputeLevels_ledger]
    exact hs
  | limits =>
    by_cases hloading : s.stc.station = .loading
    · have hempty := State.trimAll_of_empty (s := s.recomputeLimits) (hs.empty hloading).1
      rw [State.recomputeAndTrim, hempty]
      exact hs
    · exact (NoteMoves.trimAll s.recomputeLimits).keeps_notes hloading hs
  | idle =>
    rcases s.idle_cases with ⟨-, h⟩ | ⟨a, htx, hmay, hchoice, h⟩ | ⟨htx, -, h⟩ <;> rw [h]
    · exact hs
    · obtain ⟨hhead, hwithdraw⟩ := headFlight_choice hchoice
      exact hs.withoutFlight (by simp [State.ledger, htx, headFlight]) rfl rfl rfl rfl hhead hwithdraw
        fun hf => absurd hf (hworking (State.mayTransmit_iff.1 hmay).1)
    · exact hs.withoutFlight (by simp [State.ledger, htx, headFlight]) rfl rfl rfl rfl (fun x hx => by cases hx)
        (fun f hf => by cases hf) fun _ => rfl
  | endsUnreported a r htx h =>
    have hnone : s.ledger.flight = none := by
      by_contra hne
      obtain ⟨x, hx⟩ := Option.ne_none_iff_exists'.1 hne
      obtain ⟨b, hb, hsource, -⟩ := headFlight_eq_some.1 hx
      obtain rfl := Option.some.inj (htx.symm.trans hb)
      rcases h with h | ⟨-, hqueue⟩
      · rw [h] at hsource
        cases hsource
      · obtain ⟨f, hf, -⟩ := hs.flight.head x hx
        simp [State.ledger, hqueue] at hf
    exact hs.withoutFlight hnone rfl rfl rfl rfl (fun x hx => by cases hx) (fun f hf => by cases hf) fun _ => rfl
  | tableEnds a key r htx h =>
    have hnone : s.ledger.flight = none := by simp [State.ledger, htx, headFlight, h]
    have hfreed : (s.freed r).ledger.Lawful :=
      hs.withoutFlight hnone rfl rfl rfl rfl (fun x hx => by cases hx) (fun f hf => by cases hf) fun _ => rfl
    have hledger : ((s.freed r).endTableAttempt key a r).ledger = (s.freed r).ledger := by
      have hdrop := State.recordDrop_ledger
        ((s.freed r).putEntry key (entryAfter ((s.freed r).lkc.updates.get key) a r)) (outcomeOf a.failures r)
      unfold State.endTableAttempt
      cases key <;> exact hdrop
    rw [hledger]
    exact hfreed
  | headEnds a q rest r htx h hq hnotes hnone =>
    have hended := State.headEnded_lawful hs htx h hq r
    by_cases hloading : s.stc.station = .loading
    · rw [hnone (hs.empty hloading).2]
      exact hended
    · refine hnotes.keeps_notes ?_ hended
      rw [((s.freed r).headEnded_frame a r q rest).2]
      exact hloading
  | pending | port | rate | timers | scanner | unit | sensor | presenceTimer | stale | sourceLost | sourceFresh | source
  | engineAbsent | dropEnds | offers | peer | exhaustion | receiveError | receive | deliver | ownTaken | engineLive =>
    exact hs

/-- Settles O60: each move of a step keeps the laws of the notes. -/
theorem stepsKeepNotesAndQueueInAgreement : Obligations.StepsKeepNotesAndQueueInAgreement :=
  fun _ _ hstep hs => State.notesLawful_iff.2
    ((Moves.step hstep).keeps (fun _ _ => Move.keeps_notes) (State.notesLawful_iff.1 hs))

end Sys2Proof.Machine
end

section
/-! PROOFS. RESET, the start record, and the ways into JOINING, RUN and FAULT. -/

namespace Sys2Proof.Machine

/-! ## A scan that no block takes -/

/-- `t` differs from `s` only in the Matrix Scanner. -/
def State.ScannerOnly (s t : State) : Prop := t = s.setMsc t.msc

namespace State.ScannerOnly

theorem refl (s : State) : State.ScannerOnly s s := rfl

theorem setMsc (s : State) (x : MatrixScanner) : State.ScannerOnly s (s.setMsc x) := rfl

theorem trans {s t u : State} (h : State.ScannerOnly s t) (g : State.ScannerOnly t u) : State.ScannerOnly s u := by
  unfold State.ScannerOnly at *
  rw [g, h]
  rfl

theorem stc_eq {s t : State} (h : State.ScannerOnly s t) : t.stc = s.stc := by rw [h]; rfl

theorem playing_of_not_working {s : State} (h : s.working = false) : s.playing = false := by
  unfold State.working at h
  unfold State.playing
  split at h <;> simp_all

theorem foldl {f : State → Nat → State} (hf : ∀ (t : State) i, t.working = false → State.ScannerOnly t (f t i))
    (l : List Nat) {s : State} (hs : s.working = false) : State.ScannerOnly s (l.foldl f s) := by
  induction l generalizing s with
  | nil => exact refl s
  | cons i l ih =>
    have h := hf s i hs
    exact h.trans (ih ((State.working_of_station (by rw [h.stc_eq])).trans hs))

end State.ScannerOnly

namespace State

theorem placementEvent_of_idle {s : State} (h : s.playing = false) (e : PlacementEvent) : s.placementEvent e = s :=
  if_neg (by simp [h])

theorem selectRegistration_of_idle {s : State} (h : s.working = false) (n : Nat) : s.selectRegistration n = s :=
  if_neg (by simp [h])

theorem deliverRelease_scannerOnly {s : State} (h : s.working = false) (i : Nat) :
    State.ScannerOnly s (s.deliverRelease i) := by
  unfold State.deliverRelease
  rw [placementEvent_of_idle (ScannerOnly.playing_of_not_working h)]
  split
  · exact .refl s
  · exact .refl s
  · exact .setMsc s _
  · exact .refl s
  · exact .refl s

theorem deliverPress_scannerOnly {s : State} (h : s.working = false) (i : Nat) :
    State.ScannerOnly s (s.deliverPress i) := by
  unfold State.deliverPress
  dsimp only
  have hidle := placementEvent_of_idle (ScannerOnly.playing_of_not_working h)
  split
  · rw [hidle]
    exact .refl s
  · rw [hidle]
    exact .refl s
  · rw [selectRegistration_of_idle h, ite_self]
    exact .refl s
  · exact .setMsc s _
  · exact .refl s

/-- In LOADING and FAULT a scan under way is completed, and no block takes what it delivers. -/
theorem finishScan_scannerOnly {s : State} (h : s.working = false) (closed : List Nat) :
    State.ScannerOnly s (s.finishScan closed) := by
  have hreleases := fun l : List Nat => State.ScannerOnly.foldl (fun t i ht => deliverRelease_scannerOnly ht i) l
    (s := s.setMsc { s.msc with contacts := (s.msc.debounceFrom closed 0 s.msc.contacts).1, scanning := false }) h
  unfold State.finishScan
  refine (ScannerOnly.setMsc s _).trans ((hreleases _).trans (ScannerOnly.foldl (fun t i ht => deliverPress_scannerOnly ht i) _ ?_))
  exact (State.working_of_station (by rw [(hreleases _).stc_eq]; rfl)).trans h

/-! ## RESET and FAULT -/

theorem faultPin_iff {s : State} (hup : s.resetLow = false) : s.faultPin = true ↔ s.stc.station = .fault := by
  simp [faultPin, hup]

theorem runPin_iff {s : State} (hup : s.resetLow = false) : s.runPin = true ↔ s.stc.station = .run := by
  simp [runPin, hup]

theorem troublePin_iff {s : State} (hup : s.resetLow = false) : s.troublePin = true ↔
    s.stc.trouble.sensorLost = true ∨ s.stc.trouble.bellowsLost = true ∨ s.stc.trouble.engineAbsent = true ∨
      s.stc.trouble.linkDrop = true := by
  simp [troublePin, hup, TroubleSet.any, or_assoc]

theorem working_of_fault {s : State} (h : s.stc.station = .fault) : s.working = false := by
  simp [working, h]

/-- An event that changes nothing in FAULT. -/
def Stopped (s t : State) : Prop :=
  t.stc.station = .fault ∧ t.stc.faultReason = s.stc.faultReason ∧ t.resetLow = false ∧
    (s.TimersFitStation → s.lkc.tx = none →
      t = { s with msc := t.msc, lkc := { s.lkc with driven := t.lkc.driven } } ∧
        (t.lkc.driven = s.lkc.driven ∨ t.lkc.driven = []))

theorem Stopped.of_bearing {s t : State} (hfault : s.stc.station = .fault) (hup : s.resetLow = false)
    (h : t.bearing = s.bearing) (hfit : s.TimersFitStation → s.lkc.tx = none → t = s) : s.Stopped t := by
  have hstation : t.stc.station = s.stc.station := congrArg Bearing.station h
  have hreason : t.stc.faultReason = s.stc.faultReason := congrArg Bearing.faultReason h
  have hreset : t.resetLow = s.resetLow := congrArg Bearing.resetLow h
  refine ⟨hstation.trans hfault, hreason, hreset.trans hup, fun hs htx => ?_⟩
  rw [hfit hs htx]
  exact ⟨rfl, .inl rfl⟩

theorem Stopped.of_eq {s t : State} (hfault : s.stc.station = .fault) (hup : s.resetLow = false) (h : t = s) :
    s.Stopped t := .of_bearing hfault hup (by rw [h]) fun _ _ => h

/-- The station's state, its fault reason and RESET. -/
def stand (s : State) : StationState × FaultReason × Bool := (s.stc.station, s.stc.faultReason, s.resetLow)

theorem stand_of_bearing {s t : State} (h : t.bearing = s.bearing) : t.stand = s.stand :=
  congrArg (fun b : Bearing => (b.station, b.faultReason, b.resetLow)) h

theorem writeBellowsAfter_stand (s : State) (b : BellowsUnit) : (s.writeBellowsAfter b).stand = s.stand := by
  rcases writeBellowsAfter_bearing s b with h | ⟨-, -, h⟩ <;>
    exact congrArg (fun b : Bearing => (b.station, b.faultReason, b.resetLow)) h

theorem sampleExpiry_stand (s : State) : s.sampleExpiry.stand = s.stand := by
  unfold sampleExpiry
  split
  · dsimp only
    split
    · rcases missSample_bearing s with h | ⟨-, -, h⟩ <;>
        exact congrArg (fun b : Bearing => (b.station, b.faultReason, b.resetLow)) h
    · rfl
  · rfl

theorem takeSample_stand (s : State) (count : Int) : (s.takeSample count).stand = s.stand := by
  have hsampled : s.sampled.stand = s.stand := stand_of_bearing s.sampled_bearing
  have hhand : ∀ b : BellowsUnit, (s.sampled.setBlw b).handBellows.stand = s.stand := fun b =>
    (stand_of_bearing (handBellows_bearing _)).trans hsampled
  rw [takeSample_eq]
  split
  · rfl
  · split
    · exact (writeBellowsAfter_stand _ _).trans (hhand _)
    · exact hsampled
  · exact (writeBellowsAfter_stand _ _).trans (hhand _)

theorem attemptEnd_stand {s : State} (hfault : s.stc.station = .fault) (read : List Bool) :
    (s.attemptEnd read).stand = s.stand := by
  have hdrain : ∀ u : State, u.stand = s.stand → u.testDrain.stand = s.stand := by
    intro u hu
    have hstation : u.stc.station = .fault := (congrArg Prod.fst hu).trans hfault
    rcases testDrain_cases u with h | ⟨h, -⟩
    · rw [h, hu]
    · rw [hstation] at h
      cases h
  rcases s.attemptEnd_cases read with ⟨-, h⟩ | ⟨r, -, h⟩ <;> rw [h]
  rcases s.endAttempt_cases r with ⟨-, h⟩ | ⟨a, -, ⟨-, h⟩ | ⟨key, -, h⟩ | ⟨-, h⟩⟩ <;> rw [h]
  · rfl
  · exact hdrain _ (stand_of_bearing (endTableAttempt_bearing _ key a r))
  · exact hdrain _ (stand_of_bearing (endQueueAttempt_bearing _ a r))

theorem Stopped.of_stand {s t : State} (hfault : s.stc.station = .fault) (hup : s.resetLow = false)
    (h : t.stand = s.stand) (hfit : s.TimersFitStation → s.lkc.tx = none → t = s) : s.Stopped t := by
  obtain ⟨hstation, hrest⟩ := Prod.ext_iff.1 h
  obtain ⟨hreason, hreset⟩ := Prod.ext_iff.1 hrest
  refine ⟨Eq.trans hstation hfault, hreason, Eq.trans hreset hup, fun hs htx => ?_⟩
  rw [hfit hs htx]
  exact ⟨rfl, .inl rfl⟩

/-- A unit that is OFF neither converts nor takes an answer. -/
theorem off_of_fault {s : State} (hs : s.TimersFitStation) (hfault : s.stc.station = .fault) : s.blw.phase = .off := by
  obtain ⟨-, -, -, -, -, -, hphase, -⟩ := hs
  by_contra hne
  rcases (hphase hne).1 with h | h <;> rw [hfault] at h <;> cases h

theorem idle_stopped {s : State} (hfault : s.stc.station = .fault) (hup : s.resetLow = false) : s.Stopped s.idle := by
  have hbearing := idle_bearing s
  have hmay : s.mayTransmit = false := by simp [mayTransmit, working_of_fault hfault]
  rcases s.idle_cases with ⟨-, h⟩ | ⟨a, -, h, -, -⟩ | ⟨htx, -, h⟩
  · exact .of_eq hfault hup h
  · rw [hmay] at h
    cases h
  · rw [h]
    refine ⟨hfault, rfl, hup, fun _ _ => ⟨?_, .inr rfl⟩⟩
    rw [← htx]
    rfl

theorem finish_stopped {s : State} (hfault : s.stc.station = .fault) (hup : s.resetLow = false) (closed : List Nat) :
    s.Stopped (s.scanExpiry (.finish closed)) := by
  have h : State.ScannerOnly s (s.scanExpiry (.finish closed)) := by
    unfold scanExpiry
    dsimp only
    split
    · exact finishScan_scannerOnly (working_of_fault hfault) closed
    · exact .refl s
  rw [h]
  exact ⟨hfault, rfl, hup, fun _ _ => ⟨rfl, .inl rfl⟩⟩

theorem sampleExpiry_of_off {s : State} (h : s.blw.phase = .off) : s.sampleExpiry = s := by
  unfold sampleExpiry
  exact if_neg (by simp [h])

theorem sensorAnswer_of_off {s : State} (h : s.blw.phase = .off) (count : BitVec 16) (late : Bool) :
    s.sensorAnswer count late = s := by
  unfold sensorAnswer
  exact if_neg (by simp [h])

theorem recordRead_of_ne {s : State} (h : s.stc.station ≠ .loading) (rest : List Byte) : s.recordRead rest = s := by
  unfold recordRead
  split
  · contradiction
  · rfl

theorem sensorAnswer_stand (s : State) (count : BitVec 16) (late : Bool) : (s.sensorAnswer count late).stand = s.stand := by
  unfold sensorAnswer
  split
  · exact takeSample_stand s _
  · rfl

/-- In FAULT a command other than the reset event changes nothing, but that a scan is completed, that an idle moment may
forget the bits driven, and that the sensor and the line would be heard if they could still answer. -/
theorem meaning_of_fault {s : State} (hfault : s.stc.station = .fault) (hup : s.resetLow = false) {c : Instr}
    (hpin : c ≠ .resetPinEvent) : meaning c s = s ∨ (∃ closed, c = .scanTimerExpiry (.finish closed)) ∨ c = .idleMoment ∨
      ((meaning c s).stand = s.stand ∧ (s.TimersFitStation → s.lkc.tx = none → meaning c s = s)) := by
  have hw := working_of_fault hfault
  have hp := ScannerOnly.playing_of_not_working hw
  have hdeliver : ∀ p, s.deliver p = s := fun p => deliver_of_none (.inl hw)
  cases c with
  | resetPinEvent => exact absurd rfl hpin
  | resetRisingEdge => exact .inl (if_neg (by simp [hup]))
  | startRecordHeaderRead b0 b1 b2 b3 => exact .inl (if_neg (by simp [hfault]))
  | startRecordRead rest => exact .inl (recordRead_of_ne (by simp [hfault]) rest)
  | listenTimerExpiry => exact .inl (if_neg (by simp [hfault]))
  | joinTimerExpiry => exact .inl (if_neg (by simp [hfault]))
  | drainTimerExpiry => exact .inl (if_neg (by simp [hfault]))
  | scanTimerExpiry scan =>
    have hscan : s.mayScan = false := by simp [mayScan, hfault]
    cases scan with
    | whole closed => exact .inl (if_neg (by simp [hscan]))
    | start => exact .inl (if_neg (by simp [hscan]))
    | finish closed => exact .inr (.inl ⟨closed, rfl⟩)
  | sampleTimerExpiry =>
    exact .inr (.inr (.inr ⟨s.sampleExpiry_stand, fun hs _ => sampleExpiry_of_off (off_of_fault hs hfault)⟩))
  | sensorSample count late =>
    exact .inr (.inr (.inr ⟨s.sensorAnswer_stand count late,
      fun hs _ => sensorAnswer_of_off (off_of_fault hs hfault) count late⟩))
  | heartbeatTimerExpiry => exact .inl (if_neg (by simp [bellowsWrites, hfault]))
  | staleTimerExpiry => exact .inl (if_neg (by simp [hw]))
  | lostTimerExpiry => exact .inl (if_neg (by simp [hw]))
  | breathTimerExpiry => exact .inl (if_neg (by simp [hp]))
  | staccatoDeadlineExpiry tag => exact .inl (if_neg (by simp [hp]))
  | presenceTimerExpiry => exact .inl (if_neg (by simp [hw]))
  | peerExpiry a => exact .inl (if_neg (by simp [hw]))
  | engineLivenessTimerExpiry => exact .inl (if_neg (by simp [hw]))
  | linkDropTimerExpiry => exact .inl (if_neg (by simp [hw]))
  | idleMoment => exact .inr (.inr (.inl rfl))
  | attemptEnd read =>
    refine .inr (.inr (.inr ⟨attemptEnd_stand hfault read, fun _ htx => ?_⟩))
    rcases s.attemptEnd_cases read with ⟨-, h⟩ | ⟨r, -, h⟩
    · exact h
    · refine Eq.trans h ?_
      simp [endAttempt, htx]
  | frameReceived rate bits afterIdle => exact .inl (if_neg (by simp [receives, hw]))
  | bellowsFrame | registrationFrame | presenceFrame | untakenFrame | engineOfferPart | engineAlertExhausted
  | engineAlertRestarted | engineAlertPanic | queryStatus | queryPanic | queryReload | queryOtherAction
  | engineAlertNoFlag => exact .inl (hdeliver _)

theorem idle_msc (s : State) : s.idle.msc = s.msc := by
  rcases s.idle_cases with ⟨-, h⟩ | ⟨a, -, -, -, h⟩ | ⟨-, -, h⟩ <;> rw [h] <;> rfl

end State

/-- Settles O3. -/
theorem resetPinAndRisingEdgeStartTheStation : Obligations.ResetPinAndRisingEdgeStartTheStation := by
  refine ⟨fun s hup => ⟨State.troublePin_iff hup, State.runPin_iff hup, State.faultPin_iff hup⟩, fun s => ⟨rfl, rfl⟩,
    fun s c hlow => ⟨fun hpin hedge => exec_of_low hlow hpin hedge, by simp [State.troublePin, hlow],
      by simp [State.faultPin, hlow], by simp [State.runPin, hlow]⟩, fun s => ⟨fun hlow => ?_, fun hup => ?_⟩,
    fun s c hup hfault hpin => ⟨meaning c s, exec_of_up hup c, ?_⟩⟩
  · refine congrArg _ ((if_pos hlow).trans ?_)
    rfl
  · exact congrArg _ (if_neg (by simp [hup]))
  · rcases State.meaning_of_fault hfault hup hpin with h | ⟨closed, rfl⟩ | rfl | ⟨hstand, h⟩
    · rw [h]
      exact ⟨hfault, rfl, hup, fun _ _ => ⟨rfl, .inl rfl, fun _ => rfl⟩⟩
    · obtain ⟨h1, h2, h3, h4⟩ := State.finish_stopped hfault hup closed
      refine ⟨h1, h2, h3, fun hs htx => ?_⟩
      obtain ⟨h5, h6⟩ := h4 hs htx
      exact ⟨h5, h6, fun hne => absurd rfl (hne closed)⟩
    · obtain ⟨h1, h2, h3, h4⟩ := State.idle_stopped hfault hup
      refine ⟨h1, h2, h3, fun hs htx => ?_⟩
      obtain ⟨h5, h6⟩ := h4 hs htx
      exact ⟨h5, h6, fun _ => s.idle_msc⟩
    · obtain ⟨h1, h2, h3, -⟩ := State.Stopped.of_stand hfault hup hstand h
      refine ⟨h1, h2, h3, fun hs htx => ?_⟩
      rw [h hs htx]
      exact ⟨rfl, .inl rfl, fun _ => rfl⟩

end Sys2Proof.Machine
end

section
/-! PROOFS. The receiver: a frame read back as it was sent, what is taken, counted and discarded at its arrival, and the
entry to FAULT at an address conflict. -/

namespace Sys2Proof.Machine

/-! ## Frames read back (section 12.2) -/

theorem readBits_of_prefix {bits a b : List Bool} {i n : Nat} (h : a ++ b <+: bits) (hi : a.length = i)
    (hn : b.length = n) : readBits bits i n = b := by
  obtain ⟨c, rfl⟩ := h
  subst hi hn
  rw [readBits_of_le (by simp), List.append_assoc, List.drop_left, List.take_left]

/-- The bits of a frame from its opening to its end field. -/
theorem frameBits_eq (cls sender kind : Nat) (payload : List Byte) : frameBits cls sender kind payload =
    opening ++ (natToBits 2 cls ++ (natToBits 4 sender ++ (natToBits 4 kind ++ (natToBits 4 payload.length ++
      (bytesToBits payload ++ (natToBits 16 (crc16 (headBits cls sender kind payload.length ++
        bytesToBits payload)).toNat ++ List.replicate 8 true)))))) := by
  simp [frameBits, headBits]

/-- What the receiver reads of a frame as its sender drives it. -/
def readBack (cls sender kind : Nat) (payload : List Byte) : ReadFrame where
  frame := ⟨cls, sender, kind, payload⟩
  length := payload.length
  covered := headBits cls sender kind payload.length ++ bytesToBits payload
  crc := (crc16 (headBits cls sender kind payload.length ++ bytesToBits payload)).toNat
  endField := List.replicate 8 true

theorem readFrame_frameBits {cls sender kind : Nat} {payload : List Byte} (hcls : cls < 4) (hsender : sender < 16)
    (hkind : kind < 16) (hlength : payload.length < 16) :
    readFrame (frameBits cls sender kind payload) = some (readBack cls sender kind payload) := by
  have hopening : readBits (frameBits cls sender kind payload) 0 9 = opening :=
    readBits_of_prefix (a := []) (by simp [frameBits_eq]) rfl rfl
  have hc : readBits (frameBits cls sender kind payload) 9 2 = natToBits 2 cls :=
    readBits_of_prefix (a := opening) (by simp [frameBits_eq, List.prefix_append_right_inj]) rfl (by simp)
  have hs : readBits (frameBits cls sender kind payload) 11 4 = natToBits 4 sender :=
    readBits_of_prefix (a := opening ++ natToBits 2 cls) (by simp [frameBits_eq, List.prefix_append_right_inj])
      (by simp [opening]) (by simp)
  have hk : readBits (frameBits cls sender kind payload) 15 4 = natToBits 4 kind :=
    readBits_of_prefix (a := opening ++ (natToBits 2 cls ++ natToBits 4 sender))
      (by simp [frameBits_eq, List.prefix_append_right_inj]) (by simp [opening]) (by simp)
  have hl : readBits (frameBits cls sender kind payload) 19 4 = natToBits 4 payload.length :=
    readBits_of_prefix (a := opening ++ (natToBits 2 cls ++ (natToBits 4 sender ++ natToBits 4 kind)))
      (by simp [frameBits_eq, List.prefix_append_right_inj]) (by simp [opening]) (by simp)
  have hp : readBits (frameBits cls sender kind payload) 23 (8 * payload.length) = bytesToBits payload :=
    readBits_of_prefix (a := opening ++ headBits cls sender kind payload.length)
      (by simp [frameBits_eq, headBits, List.prefix_append_right_inj]) (by simp [opening, headBits]) (by simp)
  have hcovered : readBits (frameBits cls sender kind payload) 9 (14 + 8 * payload.length) =
      headBits cls sender kind payload.length ++ bytesToBits payload :=
    readBits_of_prefix (a := opening)
      (by simp [frameBits_eq, headBits, List.prefix_append_right_inj]) rfl (by simp [headBits]; omega)
  have hcrc : readBits (frameBits cls sender kind payload) (23 + 8 * payload.length) 16 =
      natToBits 16 (crc16 (headBits cls sender kind payload.length ++ bytesToBits payload)).toNat :=
    readBits_of_prefix (a := opening ++ (headBits cls sender kind payload.length ++ bytesToBits payload))
      (by simp [frameBits_eq, headBits, List.prefix_append_right_inj]) (by simp [opening, headBits]; omega) (by simp)
  have hend : readBits (frameBits cls sender kind payload) (39 + 8 * payload.length) 8 = List.replicate 8 true :=
    readBits_of_prefix (a := opening ++ (headBits cls sender kind payload.length ++ (bytesToBits payload ++
        natToBits 16 (crc16 (headBits cls sender kind payload.length ++ bytesToBits payload)).toNat)))
      (by simp [frameBits_eq, headBits]) (by simp [opening, headBits]; omega) (by simp)
  have hpayload : bitsToBytes payload.length (bytesToBits payload) = payload := by
    simpa using bitsToBytes_bytesToBits payload []
  unfold readFrame
  simp only [hl, bitsToNat_natToBits_of_lt (w := 4) hlength]
  rw [if_pos hopening, hc, hs, hk, hp, hcovered, hcrc, hend, hpayload, bitsToNat_natToBits_of_lt (w := 2) hcls,
    bitsToNat_natToBits_of_lt (w := 4) hsender, bitsToNat_natToBits_of_lt (w := 4) hkind,
    bitsToNat_natToBits_of_lt (w := 16) (BitVec.isLt _)]
  rfl

theorem readBack_valid {cls sender kind : Nat} {payload : List Byte} (h : lengthOk kind payload.length = true) :
    (readBack cls sender kind payload).valid = true := by
  simp [ReadFrame.valid, readBack, h]

/-- Every payload the station sends has the length its kind accepts. -/
theorem OutFrame.payload_fits (f : OutFrame) :
    lengthOk f.kind f.payload.length = true ∧ f.payload.length < 16 ∧ f.kind < 16 := by
  have hle {m n : Nat} (h : Nat.ble m n = true) : m ≤ n := Nat.le_of_ble_eq_true h
  cases f with
  | note f => cases f <;> exact ⟨rfl, hle rfl, hle rfl⟩
  | _ => exact ⟨rfl, hle rfl, hle rfl⟩

theorem classOf_lt (kind : Nat) : classOf kind < 4 := by
  unfold classOf
  split_ifs <;> omega

/-- Settles O40: every field is read back from its own bits, and the payloads the station sends have lengths their kinds
accept. -/
theorem framesAreReadAsSent : Obligations.FramesAreReadAsSent := by
  refine ⟨fun cls sender kind payload hcls hsender hkind hlength hok => ⟨frameBits_length cls sender kind payload, ?_⟩,
    fun own f hown => ?_⟩
  · exact ⟨_, readFrame_frameBits hcls hsender hkind hlength, readBack_valid hok, rfl⟩
  · obtain ⟨hok, hlength, hkind⟩ := f.payload_fits
    exact ⟨_, readFrame_frameBits (classOf_lt f.kind) hown hkind hlength, readBack_valid hok, rfl⟩

/-! ## Frames taken at their arrival (section 10.5) -/

/-- A valid frame read first settles the rate while the station listens, and is then taken. -/
theorem exec_frameReceived_valid {s : State} {rate : LinkRate} {bits : List Bool} {r : ReadFrame}
    (hup : s.resetLow = false) (hr : s.receives rate = true) (hread : readFrame bits = some r) (hvalid : r.valid = true) :
    exec (.frameReceived rate bits true) s =
      .next ((if s.lkc.listening then s.settleRate rate else s).takeValid r.frame) := by
  rw [exec_of_up hup]
  change Host.Outcome.next (s.receiveBits rate bits true) = _
  unfold State.receiveBits
  rw [hr, Bool.and_self, if_pos rfl, hread]
  dsimp only
  rw [if_pos hvalid]

theorem State.receives_iff {s : State} {rate : LinkRate} : s.receives rate = true ↔
    s.working = true ∧ (s.lkc.listening = true ∨ s.lkc.linkRate = some rate) := by
  simp [State.receives]

theorem State.takeValid_of_own {s : State} {f : RxFrame} (h : s.isOwn f = true) : s.takeValid f = s.takeOwn :=
  if_pos h

/-- A frame that is not the station's own transmission, from another address, is discarded, counted or kept. -/
theorem State.takeValid_of_other {s : State} {f : RxFrame} (hown : s.isOwn f = false)
    (hsender : f.sender ≠ s.stl.ownAddress) : s.takeValid f =
      if f.sender = 0 ∨ f.sender = 13 then s
      else if 4 ≤ s.lkc.rxBuffer.length then s.countReceiveError
      else s.setLkc { s.lkc with rxBuffer := s.lkc.rxBuffer ++ [f] } := by
  simp [State.takeValid, hown, hsender]

theorem State.takeValid_of_conflict {s : State} {f : RxFrame} (hown : s.isOwn f = false)
    (hsender : f.sender = s.stl.ownAddress) : s.takeValid f = s.enterFault .addressConflict := by
  simp [State.takeValid, hown, hsender]

theorem State.isOwn_eq_false {s : State} {f : RxFrame} (h : ∀ d, readFrame s.lkc.driven = some d → d.frame ≠ f) :
    s.isOwn f = false := by
  rw [Bool.eq_false_iff]
  intro hown
  obtain ⟨d, hd, hf⟩ := State.isOwn_iff.1 hown
  exact h d hd hf

/-- The rate settled: listening ends, the PRESENCE entry is written and its timer and the join timer are loaded. -/
theorem State.settleRate_eq (s : State) (rate : LinkRate) : s.settleRate rate = { s with
    stc := { s.stc with joinTimer := some (ms 350) }
    ptb := { s.ptb with presenceTimer := some (ms 100) }
    lkc := { s.lkc with
      linkRate := some rate
      listening := false
      listenTimer := none
      updates := { s.lkc.updates with
        presence := some ⟨.presence s.grf.ownGroup s.blw.settings.role s.grf.registrationMode s.stl.slotUse
          s.grf.registration s.stc.station s.stc.trouble, 0⟩ }
      tx := s.lkc.tx.map fun a =>
        if a.source = .table .presence then { a with rewritten := true, withdraw := false } else a } } := by
  unfold State.settleRate
  dsimp only
  rw [State.writePresence_eq]
  rfl

/-- Settles O41. -/
theorem validFramesSettleTheRateAndAreTaken : Obligations.ValidFramesSettleTheRateAndAreTaken := by
  refine ⟨fun s rate cls sender kind payload hup hw hlisten hrate hcls hsender hkind hlength hok => ?_,
    fun s rate cls sender kind payload hup hjoin hlisten hbuffer hcls hsender hkind hlength hok hother hown => ?_⟩
  · have hread := readFrame_frameBits hcls hsender hkind hlength
    have hexec := exec_frameReceived_valid hup (State.receives_iff.2 ⟨hw, .inr hrate⟩) hread (readBack_valid hok)
    simp only [hlisten, Bool.false_eq_true, if_false] at hexec
    refine ⟨fun hdriven => ?_, fun hown hother => ?_⟩
    · rw [hexec, State.takeValid_of_own (State.isOwn_iff.2 ⟨_, hdriven ▸ hread, rfl⟩), State.takeOwn_eq, hdriven]
    · have hown' : s.isOwn (readBack cls sender kind payload).frame = false := State.isOwn_eq_false hown
      rw [hexec, State.takeValid_of_other hown' hother]
      refine ⟨fun h => by rw [if_pos (by exact h)], fun h0 h13 hfull => ?_, fun h0 h13 hroom => ?_⟩
      · rw [if_neg (by simp [readBack, h0, h13]), if_pos hfull]
        rfl
      · rw [if_neg (by simp [readBack, h0, h13]), if_neg (by omega)]
        rfl
  · have hw : s.working = true := State.working_iff.2 (.inl hjoin)
    have hexec := exec_frameReceived_valid (rate := rate) hup (State.receives_iff.2 ⟨hw, .inl hlisten⟩)
      (readFrame_frameBits hcls hsender hkind hlength) (readBack_valid hok)
    refine ⟨_, hexec, ?_⟩
    have hown' : (s.settleRate rate).isOwn (readBack cls sender kind payload).frame = false :=
      State.isOwn_eq_false (by rw [State.settleRate_eq]; exact hown)
    rw [if_pos hlisten, State.takeValid_of_other hown' (by rw [State.settleRate_eq]; exact hother), State.settleRate_eq,
      hjoin, hbuffer]
    split <;> exact ⟨rfl, rfl, rfl, rfl, rfl, rfl, by simp_all [readBack]⟩

/-! ## What is no frame, and broken frames -/

/-- The nine bits read first are the activity's own where they spell the opening, which ends dominant. -/
theorem take_of_readBits_opening {bits : List Bool} (h : readBits bits 0 9 = opening) : bits.take 9 = opening := by
  have hlength : 9 ≤ bits.length := by
    by_contra hlt
    have h8 : (readBits bits 0 9)[8]? = some true := by
      simp only [readBits, List.drop_zero]
      rw [List.getElem?_take_of_lt (by omega), List.getElem?_append_right (by omega), List.getElem?_replicate]
      rw [if_pos (by omega)]
    rw [h] at h8
    cases h8
  simpa [readBits_of_le (bits := bits) (i := 0) (n := 9) (by omega)] using h

theorem readFrame_of_not_opening {bits : List Bool}
    (h : bits.take 9 ≠ [true, false, true, false, true, false, true, false, false]) : readFrame bits = none :=
  if_neg fun hopening => h (take_of_readBits_opening hopening)

theorem ReadFrame.valid_eq_false {r : ReadFrame}
    (h : lengthOk r.frame.kind r.length = false ∨ r.crc ≠ (crc16 r.covered).toNat ∨ false ∈ r.endField) :
    r.valid = false := by
  rw [Bool.eq_false_iff]
  intro hvalid
  simp only [ReadFrame.valid, Bool.and_eq_true, beq_iff_eq, List.all_eq_true, id] at hvalid
  obtain ⟨⟨hlength, hcrc⟩, hend⟩ := hvalid
  rcases h with h | h | h
  · simp [h] at hlength
  · exact h hcrc
  · exact absurd (hend false h) (by simp)

theorem State.receiveBits_of_unread {s : State} {rate : LinkRate} (h : s.receives rate = false) (bits : List Bool)
    (afterIdle : Bool) : s.receiveBits rate bits afterIdle = s := by
  simp [State.receiveBits, h]

/-- Settles O42. -/
theorem brokenFramesAreCounted : Obligations.BrokenFramesAreCounted := by
  intro s rate bits hup
  have hexec (afterIdle : Bool) :
      exec (.frameReceived rate bits afterIdle) s = .next (s.receiveBits rate bits afterIdle) := exec_of_up hup _
  refine ⟨fun afterIdle h => ?_, fun afterIdle h => ?_, fun r hw hrate hread h => ?_⟩
  · rw [hexec]
    rcases h with rfl | h
    · rfl
    · simp [State.receiveBits, readFrame_of_not_opening h]
  · rw [hexec, State.receiveBits_of_unread]
    rw [Bool.eq_false_iff, ne_eq, State.receives_iff]
    rcases h with h | ⟨hlisten, hrate⟩
    · simp [h]
    · simp [hlisten, hrate]
  · rw [hexec]
    unfold State.receiveBits
    rw [State.receives_iff.2 ⟨hw, hrate⟩, Bool.and_self, if_pos rfl, hread]
    dsimp only
    rw [if_neg (by simp [ReadFrame.valid_eq_false h])]
    rfl

/-! ## The address conflict (sections 9.6 and 11.9) -/

/-- Settles O15: the frame is valid and not the station's own transmission, so its sender's address decides. -/
theorem addressConflictEntersFault : Obligations.AddressConflictEntersFault := by
  refine ⟨fun s rate cls kind payload hup hw hlisten hrate hcls hlow hhigh hkind hlength hok hown => ?_,
    fun s rate cls kind payload hup hjoin hlisten hcls hlow hhigh hkind hlength hok hown => ?_⟩
  · have hread := readFrame_frameBits (sender := s.stl.ownAddress) hcls (by omega) hkind hlength
    have hexec := exec_frameReceived_valid hup (State.receives_iff.2 ⟨hw, .inr hrate⟩) hread (readBack_valid hok)
    have hown' : s.isOwn (readBack cls s.stl.ownAddress kind payload).frame = false := State.isOwn_eq_false hown
    rw [hlisten, if_neg (by simp), State.takeValid_of_conflict hown' rfl, State.enterFault_eq] at hexec
    refine ⟨_, hexec, ?_, ?_, rfl, rfl⟩
    · simp [State.faultPin, hup]
    · simp [State.runPin]
  · have hw : s.working = true := State.working_iff.2 (.inl hjoin)
    have hread := readFrame_frameBits (sender := s.stl.ownAddress) hcls (by omega) hkind hlength
    have hexec := exec_frameReceived_valid (rate := rate) hup (State.receives_iff.2 ⟨hw, .inl hlisten⟩) hread
      (readBack_valid hok)
    have hown' : (s.settleRate rate).isOwn (readBack cls s.stl.ownAddress kind payload).frame = false :=
      State.isOwn_eq_false (by rw [State.settleRate_eq]; exact hown)
    rw [hexec, if_pos hlisten, State.takeValid_of_conflict hown' (by rw [State.settleRate_eq]; rfl), State.enterFault_eq,
      State.settleRate_eq, hjoin]

/-! ## The listen and join timers -/

/-- Settles O12. -/
theorem listenTimerExpirySettlesTheRate : Obligations.ListenTimerExpirySettlesTheRate := by
  intro s hup hjoin hlisten htimer
  have hmeaning : meaning .listenTimerExpiry s = s.settleRate .kbit1000 := if_pos ⟨hjoin, hlisten, htimer⟩
  rw [State.settleRate_eq, hjoin] at hmeaning
  exact ⟨_, (exec_of_up hup _).trans (congrArg _ hmeaning), rfl, rfl, rfl⟩

/-- Two writes mark an attempt whose entry either of them wrote. -/
theorem map_rewritten_two (tx : Option Attempt) (j k : TableKey) :
    ((tx.map fun a => if a.source = .table j then { a with rewritten := true, withdraw := false } else a).map
      fun a => if a.source = .table k then { a with rewritten := true, withdraw := false } else a) =
    tx.map fun a => if a.source = .table j ∨ a.source = .table k then { a with rewritten := true, withdraw := false }
      else a := by
  rw [Option.map_map]
  refine congrArg (Option.map · tx) (funext fun a => ?_)
  simp only [Function.comp_apply]
  by_cases hj : a.source = .table j
  · simp only [hj, if_true, true_or, ite_self]
  · simp only [hj, if_false, false_or]

theorem State.enterRun_explicit (s : State) : s.enterRun = { s with
    stc := { s.stc with station := .run, joinTimer := none }
    msc := s.msc.start
    blw := { s.blw with heartbeat := if s.blw.phase = .measuring then some (ms 20) else s.blw.heartbeat }
    ptb := { s.ptb with presenceTimer := some (ms 100) }
    lkc := { s.lkc with
      updates := { s.lkc.updates with
        bellows := if s.blw.phase = .measuring then
          some ⟨.bellows s.grf.ownGroup s.blw.direction s.blw.level s.blw.sensorLost, 0⟩ else s.lkc.updates.bellows
        presence := some ⟨.presence s.grf.ownGroup s.blw.settings.role s.grf.registrationMode s.stl.slotUse
          s.grf.registration .run s.stc.trouble, 0⟩ }
      tx := s.lkc.tx.map fun a =>
        if a.source = .table .presence ∨ (a.source = .table .bellows ∧ s.blw.phase = .measuring) then
          { a with rewritten := true, withdraw := false }
        else a } } := by
  rw [State.enterRun_eq]
  by_cases hphase : s.blw.phase = .measuring
  · simp only [hphase, if_true, and_true, State.writeBellows_eq, State.writePresence_eq, map_rewritten_two]
  · simp only [hphase, if_false, and_false, or_false, State.writePresence_eq]

/-- Settles O13. -/
theorem joinTimerExpiryEntersRun : Obligations.JoinTimerExpiryEntersRun := by
  intro s hup hjoin htimer
  have hmeaning : meaning .joinTimerExpiry s = s.enterRun := if_pos ⟨hjoin, htimer⟩
  rw [State.enterRun_explicit] at hmeaning
  exact ⟨_, (exec_of_up hup _).trans (congrArg _ hmeaning), by simp [State.runPin, hup], rfl, rfl, rfl⟩

end Sys2Proof.Machine
end

section
/-! PROOFS. Deliveries: the frame taken, its evidence, and what each block does with it. -/

namespace Sys2Proof.Machine

/-! ## What a frame's evidence sets -/

/-- The values that a frame's evidence sets, with the receive buffer. -/
structure Evidence where
  peers : List PeerRecord
  rxBuffer : List RxFrame
  engine : EngineState
  livenessTimer : Timer
  engineAbsent : Bool

def State.evidence (s : State) : Evidence where
  peers := s.ptb.peers
  rxBuffer := s.lkc.rxBuffer
  engine := s.ofu.engine
  livenessTimer := s.ofu.livenessTimer
  engineAbsent := s.stc.trouble.engineAbsent

namespace State

theorem NotesOnly.evidence_eq {s t : State} (h : NotesOnly s t) : t.evidence = s.evidence := by
  unfold evidence
  rw [h.ptb_eq, h.lkc_eq, h.ofu_eq, h.trouble_eq]

theorem setGroup_evidence (s : State) (d : Direction) (level : Nat) : (s.setGroup d level).evidence = s.evidence :=
  (setGroup_notesOnly s d level).evidence_eq

theorem sourceLost_evidence (s : State) : s.sourceLost.evidence = s.evidence :=
  (sourceLost_notesOnly s).evidence_eq

theorem followReport_evidence (s : State) : s.followReport.evidence = s.evidence := by
  rcases followReport_cases s with ⟨-, h⟩ | ⟨-, ⟨a, -, h⟩ | ⟨-, -, h⟩ | ⟨-, -, h⟩⟩
  · rw [h]
  · rw [h]; rfl
  · rw [h]; rfl
  · rw [h, sourceLost_evidence]; rfl

theorem recomputeAndTrim_evidence (s : State) : s.recomputeAndTrim.evidence = s.evidence := by
  rw [(recomputeAndTrim_spec s).2.evidence_eq]
  simp only [evidence]

theorem peerReport_evidence (s : State) : s.peerReport.evidence = s.evidence :=
  (recomputeAndTrim_evidence _).trans (followReport_evidence s)

theorem takeBellows_evidence (s : State) (f : RxFrame) : (s.takeBellows f).evidence = s.evidence := by
  unfold takeBellows acceptBellows
  split
  · split
    · exact sourceLost_evidence s
    · exact setGroup_evidence _ _ _
  · rfl

theorem takeRegistration_evidence (s : State) (f : RxFrame) : (s.takeRegistration f).evidence = s.evidence := by
  unfold takeRegistration
  split
  · exact (adoptRegistration_notesOnly s _).evidence_eq
  · rfl

theorem takeOffer_evidence (s : State) (f : RxFrame) : (s.takeOffer f).evidence = s.evidence := by
  unfold takeOffer
  split
  · dsimp only
    split
    · split
      · exact recomputeAndTrim_evidence _
      · rfl
    · rfl
  · rfl

theorem takeExhausted_evidence (s : State) (mask : SlotMask) : (s.takeExhausted mask).evidence = s.evidence :=
  recomputeAndTrim_evidence _

theorem takeRestarted_evidence (s : State) : s.takeRestarted.evidence = s.evidence :=
  ((NotesOnly.refresh s).trans (NotesOnly.restartLevels _)).evidence_eq

theorem panic_evidence (s : State) : s.panic.evidence = s.evidence := (NotesOnly.panic s).evidence_eq

theorem takeAlert_evidence (s : State) (f : RxFrame) : (s.takeAlert f).evidence = s.evidence := by
  unfold takeAlert
  split
  · dsimp only
    have h1 : (if f.alertFlag 0 = true then s.takeExhausted (f.byte 1) else s).evidence = s.evidence := by
      split
      · exact takeExhausted_evidence s _
      · rfl
    rw [← h1]
    generalize (if f.alertFlag 0 = true then s.takeExhausted (f.byte 1) else s) = u
    have h2 : (if f.alertFlag 1 = true then u.takeRestarted else u).evidence = u.evidence := by
      split
      · exact takeRestarted_evidence u
      · rfl
    rw [← h2]
    split
    · exact panic_evidence _
    · rfl
  · rfl

theorem writeStatus_evidence (s : State) (r : Response) : (s.writeStatus r).evidence = s.evidence :=
  (NotesOnly.writeEntry s _ _).evidence_eq

/-! ## The reload -/

/-- The station as a reload begins, before the panic that follows (R173). -/
def reloading (s : State) : State :=
  { s with
    stc := { s.stc with station := .reloading, joinTimer := none }
    msc := { s.msc with scanTimer := none }
    blw := { s.blw with phase := .off, outstanding := false, sampleTimer := none, heartbeat := none } }

/-- A reload answers ACK and writes its PRESENCE after the panic; the STATUS entry then keeps the drain from ending. -/
theorem enterReloading_explicit (s : State) : s.enterReloading =
    { s.reloading.panic with
      stc := { s.reloading.panic.stc with drainTimer := some (ms 100) }
      ptb := { s.ptb with presenceTimer := some (ms 100) }
      lkc := { s.reloading.panic.lkc with
        updates := { s.reloading.panic.lkc.updates with
          status := some ⟨.status .ack .reloading s.reloading.panic.stc.counters, 0⟩
          presence := some ⟨.presence s.grf.ownGroup s.blw.settings.role s.grf.registrationMode s.stl.slotUse
            s.grf.registration .reloading s.stc.trouble, 0⟩ }
        tx := s.reloading.panic.lkc.tx.map fun a =>
          if a.source = .table .status ∨ a.source = .table .presence then
            { a with rewritten := true, withdraw := false } else a } } := by
  have hpanic := NotesOnly.panic s.reloading
  have hbegun : s.reloadBegun = ((s.reloading.panic.writeStatus .ack).writePresence).setStc
      { ((s.reloading.panic.writeStatus .ack).writePresence).stc with drainTimer := some (ms 100) } := rfl
  rw [enterReloading_eq]
  have hdrain : s.reloadBegun.testDrain = s.reloadBegun := by
    refine if_neg fun h => ?_
    obtain ⟨-, -, hstatus⟩ := h
    rw [hbegun, writePresence_eq] at hstatus
    simp [writeStatus, UpdateTable.put] at hstatus
  rw [hdrain, hbegun, writePresence_eq, writeStatus, writeEntry_eq_mark]
  simp only [setStc, map_rewritten_two, hpanic.grf_eq, hpanic.blw_eq, hpanic.stl_eq, hpanic.ptb_eq, hpanic.station_eq,
    hpanic.trouble_eq]
  rfl

theorem enterReloading_evidence (s : State) : s.enterReloading.evidence = s.evidence := by
  have h := panic_evidence s.reloading
  rw [enterReloading_explicit]
  simp only [evidence, reloading] at h ⊢
  simp only [Evidence.mk.injEq] at h
  obtain ⟨-, hbuffer, hengine, htimer, htrouble⟩ := h
  simp only [hbuffer, hengine, htimer, htrouble]

theorem takeQuery_evidence (s : State) (f : RxFrame) : (s.takeQuery f).evidence = s.evidence := by
  unfold takeQuery
  dsimp only
  split
  · split
    · exact writeStatus_evidence s _
    · exact (writeStatus_evidence _ _).trans (panic_evidence s)
    · split
      · exact writeStatus_evidence s _
      · exact enterReloading_evidence s
    · exact writeStatus_evidence s _
  · rfl

/-- What a block does with a frame leaves the evidence of it. -/
theorem handOn_evidence (s : State) (f : RxFrame) : (s.handOn f).evidence = (s.heard f).evidence := by
  rw [handOn_eq]
  split_ifs
  · exact takeBellows_evidence _ f
  · rfl
  · exact takeRegistration_evidence _ f
  · rfl
  · exact takeOffer_evidence _ f
  · exact takeAlert_evidence _ f
  · exact takeQuery_evidence _ f
  · rfl

theorem peerEvidence_evidence (s : State) (f : RxFrame) : (s.peerEvidence f).evidence =
    if s.isPeerAddress f.sender = true then
      { s.evidence with peers := s.ptb.peers.set (f.sender - 1) ⟨true, some (ms 350), s.knownAfter f⟩ }
    else s.evidence := by
  rw [peerEvidence_eq]
  split
  · split
    · rfl
    · rw [peerReport_evidence]
      rfl
  · rfl

theorem engineEvidence_evidence (s : State) : s.engineEvidence.evidence =
    { s.evidence with engine := .live, livenessTimer := some (ms 2000), engineAbsent := false } := rfl

theorem heard_evidence (s : State) (f : RxFrame) : (s.heard f).evidence =
    if s.isPeerAddress f.sender = true then
      { s.evidence with peers := s.ptb.peers.set (f.sender - 1) ⟨true, some (ms 350), s.knownAfter f⟩ }
    else if f.sender = 15 then
      { s.evidence with engine := .live, livenessTimer := some (ms 2000), engineAbsent := false }
    else s.evidence := by
  unfold heard
  by_cases h15 : f.sender = 15
  · have hpeer : s.isPeerAddress f.sender = false := by simp [isPeerAddress, h15]
    rw [if_pos h15, engineEvidence_evidence, peerEvidence_evidence, hpeer, if_neg Bool.false_ne_true,
      if_neg Bool.false_ne_true, if_pos h15]
  · rw [if_neg h15, peerEvidence_evidence]
    simp [h15]

/-- From the service tool, and from an address that is no peer's, a frame's evidence changes nothing. -/
theorem heard_of_none {s : State} {f : RxFrame} (hpeer : s.isPeerAddress f.sender = false) (h15 : f.sender ≠ 15) :
    s.heard f = s := by
  unfold heard
  rw [if_neg h15, peerEvidence_eq, hpeer]
  rfl

theorem heard_of_engine {s : State} {f : RxFrame} (h15 : f.sender = 15) : s.heard f = s.engineEvidence := by
  have hpeer : s.isPeerAddress f.sender = false := by simp [isPeerAddress, h15]
  unfold heard
  rw [if_pos h15, peerEvidence_eq, hpeer]
  rfl

theorem heard_of_ne_engine {s : State} {f : RxFrame} (h15 : f.sender ≠ 15) : s.heard f = s.peerEvidence f := if_neg h15

end State

/-- A frame leaves the receive buffer. -/
def State.popped (s : State) (rest : List RxFrame) : State :=
  { s with lkc := { s.lkc with rxBuffer := rest } }

/-- A delivery command that names the oldest frame delivers it. -/
theorem exec_of_delivers {s : State} {c : Instr} {f : RxFrame} {rest : List RxFrame} (hup : s.resetLow = false)
    (hw : s.working = true) (hbuffer : s.lkc.rxBuffer = f :: rest) (h : delivers c f = true) :
    exec c s = .next ((s.popped rest).handOn f) := by
  rw [exec_of_up hup]
  have hdeliver : meaning c s = s.deliver (delivers c) := by
    cases c with
    | bellowsFrame | registrationFrame | presenceFrame | untakenFrame | engineOfferPart | engineAlertExhausted
    | engineAlertRestarted | engineAlertPanic | engineAlertNoFlag | queryStatus | queryPanic | queryReload
    | queryOtherAction => rfl
    | _ => cases h
  rw [hdeliver, State.deliver_of_front hw hbuffer h]
  rfl

/-- The delivery commands. -/
def deliveries : List Instr :=
  [.bellowsFrame, .registrationFrame, .presenceFrame, .untakenFrame, .engineOfferPart, .engineAlertExhausted,
    .engineAlertRestarted, .engineAlertPanic, .engineAlertNoFlag, .queryStatus, .queryPanic, .queryReload,
    .queryOtherAction]

theorem meaning_of_mem_deliveries {c : Instr} (h : c ∈ deliveries) (s : State) :
    meaning c s = s.deliver (delivers c) ∧ c ≠ .resetPinEvent ∧ c ≠ .resetRisingEdge := by
  simp only [deliveries, List.mem_cons, List.not_mem_nil, or_false] at h
  rcases h with rfl | rfl | rfl | rfl | rfl | rfl | rfl | rfl | rfl | rfl | rfl | rfl | rfl <;>
    exact ⟨rfl, by simp, by simp⟩

/-- What is known of the sender once its frame is heard (R142), written out. -/
theorem State.knownAfter_eq (s : State) (f : RxFrame) : s.knownAfter f =
    if f.kind = kindPresence ∧ 1 ≤ (f.byte 0).toNat ∧ (f.byte 0).toNat ≤ 4 then
      some ⟨(f.byte 0).toNat, (f.byte 1).getLsbD 0, f.byte 2⟩
    else if (s.ptb.peer f.sender).live = true then (s.ptb.peer f.sender).declared else none := by
  unfold State.knownAfter RxFrame.declaration
  dsimp only
  split_ifs <;> rfl

/-- Settles O43: the evidence is set before the frame is handed on, and no block changes it after that. -/
theorem deliveriesTakeTheOldestFrameAndItsEvidence : Obligations.DeliveriesTakeTheOldestFrameAndItsEvidence := by
  refine ⟨fun s c f rest hup hw hbuffer h => ⟨_, exec_of_delivers hup hw hbuffer h, ?_⟩, fun s c hc h => ?_⟩
  · have he := (State.handOn_evidence (s.popped rest) f).trans (State.heard_evidence (s.popped rest) f)
    rw [State.knownAfter_eq] at he
    generalize (s.popped rest).handOn f = t at he
    by_cases hpeer : (s.popped rest).isPeerAddress f.sender = true
    · rw [if_pos hpeer] at he
      simp only [State.evidence, Evidence.mk.injEq] at he
      obtain ⟨hpeers, hrx, hengine, htimer, habsent⟩ := he
      have hne : f.sender ≠ 15 := by
        have := State.isPeerAddress_iff.1 hpeer
        omega
      exact ⟨hrx, fun _ => hpeers, fun h => absurd (State.isPeerAddress_iff.1 hpeer) h, fun h => absurd h hne,
        fun _ => ⟨hengine, htimer⟩⟩
    · rw [if_neg hpeer] at he
      have hpeer' := mt State.isPeerAddress_iff.2 hpeer
      by_cases h15 : f.sender = 15
      · rw [if_pos h15] at he
        simp only [State.evidence, Evidence.mk.injEq] at he
        obtain ⟨hpeers, hrx, hengine, htimer, habsent⟩ := he
        exact ⟨hrx, fun h => absurd h hpeer', fun _ => hpeers, fun _ => ⟨hengine, htimer, habsent⟩,
          fun h => absurd h15 h⟩
      · rw [if_neg h15] at he
        simp only [State.evidence, Evidence.mk.injEq] at he
        obtain ⟨hpeers, hrx, hengine, htimer, habsent⟩ := he
        exact ⟨hrx, fun h => absurd h hpeer', fun _ => hpeers, fun h => absurd h h15, fun _ => ⟨hengine, htimer⟩⟩
  · obtain ⟨hmeaning, hpin, hedge⟩ := meaning_of_mem_deliveries hc s
    cases hup : s.resetLow with
    | true => exact exec_of_low hup hpin hedge
    | false =>
      rw [exec_of_up hup, hmeaning, State.deliver_of_none]
      rcases h with h | h | ⟨f, rest, hf, h⟩
      · exact .inl h
      · exact .inr fun f rest hf => by simp [h] at hf
      · refine .inr fun f' rest' hf' => ?_
        rw [hf] at hf'
        cases hf'
        exact h

/-! ## The reports of the Peer Table -/

theorem State.lowestCandidate_congr {s t : State} (hpeers : t.ptb = s.ptb) (hgroup : t.grf.ownGroup = s.grf.ownGroup) :
    t.lowestCandidate = s.lowestCandidate := by
  unfold State.lowestCandidate
  have hcandidate : t.isCandidate = s.isCandidate := by
    funext a
    unfold State.isCandidate
    rw [hpeers, hgroup]
  rw [hcandidate]

/-- The Group Follower's values after a report of the Peer Table (R107, R109, R144). -/
theorem State.followReport_grf (s : State) : s.followReport.grf =
    match s.grf.sourceMode with
    | .localUnit => s.grf
    | .follow =>
      if s.lowestCandidate = none ∧ s.grf.freshness ≠ .lost then
        { s.grf with source := none, freshness := .lost, staleTimer := none, lostTimer := none, level := 0 }
      else { s.grf with source := s.lowestCandidate } := by
  rcases State.followReport_cases s with ⟨hmode, h⟩ | ⟨hmode, ⟨a, ha, h⟩ | ⟨ha, hf, h⟩ | ⟨ha, hf, h⟩⟩
  · rw [h, hmode]
  · rw [h, hmode, ha]
    rfl
  · rw [h, hmode, ha, hf]
    rfl
  · rw [h, hmode, ha]
    simp only [hf, ne_eq, not_false_eq_true, and_self, if_true]
    exact (State.sourceLost_notesOnly _).grf_eq

theorem State.followReport_keeps (s : State) : s.followReport.grf.registration = s.grf.registration ∧
    s.followReport.grf.direction = s.grf.direction := by
  rw [State.followReport_grf]
  split
  · exact ⟨rfl, rfl⟩
  · split
    · exact ⟨rfl, rfl⟩
    · exact ⟨rfl, rfl⟩

theorem State.followReport_ownGroup (s : State) : s.followReport.grf.ownGroup = s.grf.ownGroup := by
  rw [State.followReport_grf]
  split
  · rfl
  · split <;> rfl

/-- A report taken by the Group Follower changes its values, the trouble set and what notes pass through. -/
theorem State.followReport_notesOnly (s : State) : State.NotesOnly { s with
    stc := { s.stc with trouble := s.followReport.stc.trouble }
    grf := s.followReport.grf } s.followReport := by
  rcases State.followReport_cases s with ⟨-, h⟩ | ⟨-, ⟨a, -, h⟩ | ⟨-, -, h⟩ | ⟨-, -, h⟩⟩
  · rw [h]
    exact State.NotesOnly.refl s
  · rw [h]
    exact State.NotesOnly.refl _
  · rw [h]
    exact State.NotesOnly.refl _
  · have hlost := State.sourceLost_notesOnly (s.setGrf { s.grf with source := none })
    rw [h, hlost.grf_eq, hlost.trouble_eq]
    exact hlost

/-- A report `u` taken by the Group Follower, followed by new shares and limits and a trim, which give `t`. -/
theorem State.NotesOnly.reported {s t u : State}
    (hfollow : State.NotesOnly { s with stc := { s.stc with trouble := u.stc.trouble }, grf := u.grf } u)
    (hlimits : State.NotesOnly { u with ofu := { u.ofu with share := t.ofu.share, limit := t.ofu.limit } } t) :
    t.ptb = s.ptb ∧ t.grf = u.grf ∧ t.stc.trouble = u.stc.trouble ∧
      t.ofu = { s.ofu with share := t.ofu.share, limit := t.ofu.limit } ∧
      State.NotesOnly { s with
        stc := { s.stc with trouble := t.stc.trouble }
        grf := t.grf
        ofu := { s.ofu with share := t.ofu.share, limit := t.ofu.limit } } t := by
  have hofu : u.ofu = s.ofu := hfollow.ofu_eq
  have hgrf : t.grf = u.grf := hlimits.grf_eq
  have htrouble : t.stc.trouble = u.stc.trouble := hlimits.trouble_eq
  refine ⟨hlimits.ptb_eq.trans hfollow.ptb_eq, hgrf, htrouble, ?_, ?_⟩
  · have h := hlimits.ofu_eq
    rw [hofu] at h
    exact h
  · rw [hofu] at hlimits
    rw [hgrf, htrouble]
    refine State.NotesOnly.trans ?_ hlimits
    rw [State.notesOnly_iff] at hfollow ⊢
    obtain ⟨h1, h2, h3, h4, h5, h6, h7, h8, -, h10, h11⟩ := hfollow
    exact ⟨h1, h2, h3, h4, h5, h6, h7, h8, rfl, h10, h11⟩

/-- What a report of the Peer Table leaves: the limits follow the peers, and the Group Follower's values are those of
`followReport`. -/
theorem State.peerReport_spec (s : State) : s.peerReport.LimitsCurrent ∧ s.peerReport.ptb = s.ptb ∧
    s.peerReport.grf = s.followReport.grf ∧ s.peerReport.stc.trouble = s.followReport.stc.trouble ∧
    s.peerReport.ofu = { s.ofu with share := s.peerReport.ofu.share, limit := s.peerReport.ofu.limit } ∧
    State.NotesOnly { s with
      stc := { s.stc with trouble := s.peerReport.stc.trouble }
      grf := s.peerReport.grf
      ofu := { s.ofu with share := s.peerReport.ofu.share, limit := s.peerReport.ofu.limit } } s.peerReport := by
  have hreport : s.peerReport = s.followReport.recomputeAndTrim := rfl
  rw [hreport]
  obtain ⟨hcurrent, hlimits⟩ := State.recomputeAndTrim_spec s.followReport
  generalize s.followReport.recomputeAndTrim = t at hcurrent hlimits ⊢
  exact ⟨hcurrent, State.NotesOnly.reported (State.followReport_notesOnly s) hlimits⟩

/-- The trim of a report follows the Group Follower's part of it, with the shares and limits of the peers then. -/
theorem State.peerReport_trims (s : State) : s.peerReport =
    ({ s.followReport with ofu := { s.followReport.ofu with
      share := s.peerReport.ofu.share
      limit := s.peerReport.ofu.limit } } : State).trimAll := by
  have hreport : s.peerReport = s.followReport.recomputeLimits.trimAll := rfl
  have hofu : s.peerReport.ofu = s.followReport.recomputeLimits.ofu :=
    (State.NotesOnly.trimAll s.followReport.recomputeLimits).ofu_eq
  rw [hofu, hreport]
  exact congrArg State.trimAll (State.recomputeLimits_ofu s.followReport)

/-! ## Frames that no block takes -/

theorem RxFrame.untaken_iff {f : RxFrame} : f.untaken = true ↔
    f.kind = 1 ∨ f.kind = 2 ∨ f.kind = 3 ∨ f.kind = 5 ∨ f.kind = 8 ∨ 11 ≤ f.kind := by
  simp [RxFrame.untaken, kindNoteStart, kindNoteEnd, kindBow, kindLevel, kindStatus, or_assoc]

/-- The frames that no block takes beyond their evidence, and that they declare nothing known of a peer. -/
theorem State.handOn_of_untaken {c : Instr} {f : RxFrame} (h : delivers c f = true)
    (hc : c = .untakenFrame ∨ c = .engineAlertNoFlag ∨
      (c ∈ [Instr.bellowsFrame, .registrationFrame, .presenceFrame] ∧ 13 ≤ f.sender) ∨
      (c ∈ [Instr.engineOfferPart, .engineAlertExhausted, .engineAlertRestarted, .engineAlertPanic] ∧
        f.sender ≠ 15)) (s : State) :
    s.handOn f = s.heard f ∧ (f.sender ≤ 12 → f.kind ≠ kindPresence) := by
  have hstation (h13 : 13 ≤ f.sender) : f.fromStation = false := by
    simp only [RxFrame.fromStation, Bool.and_eq_false_iff, decide_eq_false_iff_not]
    omega
  rw [State.handOn_eq]
  rcases hc with rfl | rfl | ⟨hc, h13⟩ | ⟨hc, hne⟩
  · have hk := RxFrame.untaken_iff.1 h
    have hbellows : f.kind ≠ kindBellows := by unfold kindBellows; omega
    have hregistration : f.kind ≠ kindRegistration := by unfold kindRegistration; omega
    have hoffer : f.kind ≠ kindOffer := by unfold kindOffer; omega
    have halert : f.kind ≠ kindAlert := by unfold kindAlert; omega
    have hquery : f.kind ≠ kindQuery := by unfold kindQuery; omega
    have hpresence : f.kind ≠ kindPresence := by unfold kindPresence; omega
    rw [if_neg hbellows, if_neg hregistration, if_neg hoffer, if_neg halert, if_neg hquery]
    exact ⟨rfl, fun _ => hpresence⟩
  · simp only [delivers, Bool.and_eq_true, beq_iff_eq, Bool.not_eq_true'] at h
    obtain ⟨⟨⟨hk, h0⟩, h1⟩, h2⟩ := h
    simp [hk, kindBellows, kindRegistration, kindOffer, kindAlert, kindPresence, State.takeAlert, h0, h1, h2]
  · rw [hstation h13]
    simp only [List.mem_cons, List.not_mem_nil, or_false] at hc
    rcases hc with rfl | rfl | rfl <;> simp only [delivers, beq_iff_eq] at h <;>
      simp [h, kindBellows, kindRegistration, kindOffer, kindAlert, kindQuery, kindPresence]
    omega
  · simp only [List.mem_cons, List.not_mem_nil, or_false] at hc
    rcases hc with rfl | rfl | rfl | rfl <;> simp only [delivers, Bool.and_eq_true, beq_iff_eq] at h <;>
      simp [h, kindBellows, kindRegistration, kindOffer, kindAlert, kindPresence, State.takeAlert, State.takeOffer, hne]

/-- Settles O44. -/
theorem untakenFramesAreEvidenceAlone : Obligations.UntakenFramesAreEvidenceAlone := by
  intro s c f rest hup hw hbuffer h hc
  obtain ⟨hhand, hkind⟩ := State.handOn_of_untaken h hc (s.popped rest)
  rw [exec_of_delivers hup hw hbuffer h, hhand]
  refine ⟨fun h14 => ?_, fun h15 => ?_, fun h1 h12 hown hlive => ?_, fun h1 h12 hown hlive => ?_⟩
  · rw [State.heard_of_none (by simp [State.isPeerAddress, h14]) (by omega)]
    rfl
  · rw [State.heard_of_engine h15]
    rfl
  · have hknown : (s.popped rest).knownAfter f = (s.ptb.peer f.sender).declared := by
      rw [State.knownAfter_eq, if_neg fun h => hkind h12 h.1]
      exact if_pos hlive
    rw [State.heard_of_ne_engine (by omega), State.peerEvidence_eq,
      if_pos (State.isPeerAddress_iff (s := s.popped rest) |>.2 ⟨h1, h12, hown⟩), hknown,
      if_pos ⟨hlive, rfl⟩]
    rfl
  · have hknown : (s.popped rest).knownAfter f = none := by
      rw [State.knownAfter_eq, if_neg fun h => hkind h12 h.1]
      exact if_neg (by simpa [State.popped] using hlive)
    rw [State.heard_of_ne_engine (by omega), State.peerEvidence_eq,
      if_pos (State.isPeerAddress_iff (s := s.popped rest) |>.2 ⟨h1, h12, hown⟩), hknown, if_neg (by simp [State.popped, hlive])]
    have hr := State.peerReport_spec ((s.popped rest).setPeer f.sender ⟨true, some (ms 350), none⟩)
    generalize ((s.popped rest).setPeer f.sender ⟨true, some (ms 350), none⟩).peerReport = t at hr
    obtain ⟨hcurrent, hptb, hgrf, -, hofu, -⟩ := hr
    obtain ⟨hregistration, hdirection⟩ := State.followReport_keeps
      ((s.popped rest).setPeer f.sender ⟨true, some (ms 350), none⟩)
    exact ⟨t, rfl, hcurrent, hptb, by rw [hofu]; rfl, by rw [hgrf, hregistration]; rfl, by rw [hgrf, hdirection]; rfl⟩

/-! ## The entries that notes leave -/

/-- The update table without its LEVEL entries. -/
def UpdateTable.others (t : UpdateTable) : UpdateTable := { t with levels := .all none }

namespace State

theorem writeLevel_others (s : State) (k : Slot) : (s.writeLevel k).lkc.updates.others = s.lkc.updates.others := by
  have h : (s.writeLevel k).lkc.updates = (s.writeEntry (.level k) (.level k (s.lvu.sectionLevel.get k))).lkc.updates := rfl
  rw [h, writeEntry_updates]
  rfl

theorem removeLevel_others (s : State) (k : Slot) : (s.removeLevel k).lkc.updates.others = s.lkc.updates.others := by
  unfold removeLevel removeEntry
  split
  · rfl
  · split <;> rfl

theorem reportCount_others (s : State) (k : Slot) : (s.reportCount k).lkc.updates.others = s.lkc.updates.others := by
  unfold reportCount levelRises
  dsimp only
  split
  · split
    · exact writeLevel_others _ k
    · rfl
  · split
    · exact removeLevel_others _ k
    · rfl

theorem restartLevel_others (s : State) (k : Slot) : (s.restartLevel k).lkc.updates.others = s.lkc.updates.others := by
  unfold restartLevel
  split
  · exact writeLevel_others s k
  · rfl

theorem others_foldl {α : Type} {f : State → α → State}
    (hf : ∀ s a, (f s a).lkc.updates.others = s.lkc.updates.others) (l : List α) (s : State) :
    (l.foldl f s).lkc.updates.others = s.lkc.updates.others := by
  induction l generalizing s with
  | nil => rfl
  | cons a l ih => exact (ih _).trans (hf s a)

theorem recomputeLevels_others (s : State) : s.recomputeLevels.lkc.updates.others = s.lkc.updates.others := by
  have hexamine (t : State) (k : Slot) : (t.examineLevel k).lkc.updates.others = t.lkc.updates.others := by
    unfold examineLevel
    split
    · exact writeLevel_others t k
    · rfl
  unfold recomputeLevels
  rw [others_foldl hexamine]
  rfl

end State

theorem FineMove.others_eq {s t : State} (h : FineMove s t) : t.lkc.updates.others = s.lkc.updates.others := by
  cases h with
  | report k => exact s.reportCount_others k
  | restart k => exact s.restartLevel_others k
  | _ => rfl

theorem NoteMoves.others_eq {s t : State} (h : NoteMoves s t) : t.lkc.updates.others = s.lkc.updates.others :=
  (FineMoves.of_noteMoves h).keeps (P := fun u => u.lkc.updates.others = s.lkc.updates.others)
    (fun _ _ hm hu => hm.others_eq.trans hu) rfl

namespace State

theorem setGroup_others (s : State) (d : Direction) (level : Nat) :
    (s.setGroup d level).lkc.updates.others = s.lkc.updates.others := by
  unfold setGroup
  dsimp only
  split
  · refine (NoteMoves.groupChange _ _ _ _).others_eq.trans ?_
    split
    · exact recomputeLevels_others _
    · rfl
  · rfl

theorem followReport_others (s : State) : s.followReport.lkc.updates.others = s.lkc.updates.others := by
  rcases followReport_cases s with ⟨-, h⟩ | ⟨-, ⟨a, -, h⟩ | ⟨-, -, h⟩ | ⟨-, -, h⟩⟩
  · rw [h]
  · rw [h]; rfl
  · rw [h]; rfl
  · rw [h]
    exact setGroup_others _ _ _

theorem peerReport_others (s : State) : s.peerReport.lkc.updates.others = s.lkc.updates.others := by
  have hreport : s.peerReport = s.followReport.recomputeLimits.trimAll := rfl
  rw [hreport, (NoteMoves.trimAll _).others_eq]
  exact followReport_others s

theorem peerEvidence_others (s : State) (f : RxFrame) :
    (s.peerEvidence f).lkc.updates.others = s.lkc.updates.others := by
  rw [peerEvidence_eq]
  split
  · split
    · rfl
    · exact peerReport_others _
  · rfl

theorem heard_others (s : State) (f : RxFrame) : (s.heard f).lkc.updates.others = s.lkc.updates.others := by
  unfold heard
  split
  · exact peerEvidence_others s f
  · exact peerEvidence_others s f

/-! ## What a frame's evidence leaves -/

theorem peerReport_stl (s : State) : s.peerReport.stl = s.stl := s.peerReport_spec.2.2.2.2.2.stl_eq

theorem peerEvidence_stl (s : State) (f : RxFrame) : (s.peerEvidence f).stl = s.stl := by
  rw [peerEvidence_eq]
  split
  · split
    · rfl
    · exact peerReport_stl _
  · rfl

theorem heard_stl (s : State) (f : RxFrame) : (s.heard f).stl = s.stl := by
  unfold heard
  split
  · exact peerEvidence_stl s f
  · exact peerEvidence_stl s f

end State

/-! ## Queries (section 11.6) -/

/-- A QUERY is handed to Station Control once its evidence is taken. -/
theorem State.handOn_of_query {f : RxFrame} (h : f.kind = kindQuery) (s : State) :
    s.handOn f = (s.heard f).takeQuery f := by
  rw [State.handOn_eq]
  simp [h, kindBellows, kindRegistration, kindOffer, kindAlert, kindQuery]

theorem State.takeQuery_of_other {s : State} {f : RxFrame} (h0 : (f.byte 0).toNat ≠ 0)
    (hown : (f.byte 0).toNat ≠ s.stl.ownAddress) : s.takeQuery f = s :=
  if_neg (not_or.2 ⟨h0, hown⟩)

/-- A QUERY to this station or to all, by its action. -/
theorem State.takeQuery_of_own {s : State} {f : RxFrame}
    (h : (f.byte 0).toNat = 0 ∨ (f.byte 0).toNat = s.stl.ownAddress) : s.takeQuery f =
    if f.action = 0 then s.writeStatus .ack
    else if f.action = 1 then s.panic.writeStatus .ack
    else if f.action = 2 then (if s.stc.station = .reloading then s.writeStatus .busy else s.enterReloading)
    else s.writeStatus .nak := by
  unfold State.takeQuery RxFrame.action
  dsimp only
  rw [if_pos h]
  rcases hcode : (f.byte 1).toNat with _ | _ | _ | n <;> simp

theorem State.writeStatus_status (s : State) (r : Response) :
    (s.writeStatus r).lkc.updates.status = some ⟨.status r s.stc.station s.stc.counters, 0⟩ := by
  unfold State.writeStatus
  rw [State.writeEntry_updates]
  rfl

theorem State.writeStatus_stc (s : State) (r : Response) : (s.writeStatus r).stc = s.stc := by
  unfold State.writeStatus
  rw [State.writeEntry_eq]

/-- The action that a query command names. -/
theorem delivers_query {c : Instr} {f : RxFrame} (h : delivers c f = true)
    (hc : c = .queryStatus ∨ c = .queryPanic ∨ c = .queryOtherAction ∨ c = .queryReload) : f.kind = kindQuery ∧
      (c = .queryStatus → f.action = 0) ∧ (c = .queryPanic → f.action = 1) ∧
      (c = .queryOtherAction → 3 ≤ f.action) ∧ (c = .queryReload → f.action = 2) := by
  rcases hc with rfl | rfl | rfl | rfl <;>
    simp only [delivers, Bool.and_eq_true, beq_iff_eq, decide_eq_true_eq] at h <;> simp [h]

/-- Settles O52. -/
theorem queriesAreAnsweredInTheStatusEntry : Obligations.QueriesAreAnsweredInTheStatusEntry := by
  intro s c f rest hup hw hbuffer h hc
  obtain ⟨hkind, hstatus, hpanic, hother, -⟩ := delivers_query h hc
  have hexec := exec_of_delivers hup hw hbuffer h
  rw [State.handOn_of_query hkind] at hexec
  have hstl := State.heard_stl (s.popped rest) f
  have hstation := State.heard_station (s.popped rest) f
  refine ⟨fun hown hreload => ⟨_, hexec, ?_⟩, fun h0 hown => ⟨_, hexec, ?_⟩⟩
  · rw [State.takeQuery_of_own (by rw [hstl]; exact hown)]
    have hpanicked := State.NotesOnly.panic ((s.popped rest).heard f)
    rcases hc with rfl | rfl | rfl | rfl
    · rw [if_pos (hstatus rfl), State.writeStatus_status, State.writeStatus_stc]
      exact ⟨hstation, by simp⟩
    · rw [if_neg (by simp [hpanic rfl]), if_pos (hpanic rfl), State.writeStatus_status, State.writeStatus_stc]
      exact ⟨hpanicked.station_eq.trans hstation, by simp⟩
    · have := hother rfl
      rw [if_neg (by omega), if_neg (by omega), if_neg (by omega), State.writeStatus_status, State.writeStatus_stc]
      exact ⟨hstation, by simp⟩
    · exact absurd rfl hreload
  · rw [State.takeQuery_of_other h0 (by rw [hstl]; exact hown)]
    have hkept := congrArg UpdateTable.status (State.heard_others (s.popped rest) f)
    refine ⟨hkept, hstation, ?_, fun h14 => ?_⟩
    · show State.heard (s.popped rest) f = _
      by_cases h15 : f.sender = 15
      · rw [State.heard_of_engine h15, if_pos h15]
        rfl
      · rw [State.heard_of_ne_engine h15, if_neg h15]
        rfl
    · rw [State.heard_of_none (by simp [State.isPeerAddress, h14]) (by omega)]
      rfl

end Sys2Proof.Machine
end

section
/-! PROOFS. The Group Follower: reports of the Peer Table, BELLOWS and REGISTRATION frames, and group changes. -/

namespace Sys2Proof.Machine

/-! ## Peers that appear, change and expire (sections 9.3 to 9.5) -/

/-- Where the report leaves no candidate of a station that still had a source, the source is lost (R107, R109). -/
theorem State.followReport_trouble {s : State} (hmode : s.grf.sourceMode = .follow) (hnone : s.lowestCandidate = none)
    (hfresh : s.grf.freshness ≠ .lost) :
    s.followReport.stc.trouble = { s.stc.trouble with bellowsLost := true } := by
  rcases State.followReport_cases s with ⟨h, -⟩ | ⟨-, ⟨a, ha, -⟩ | ⟨-, hf, -⟩ | ⟨-, -, h⟩⟩
  · simp [hmode] at h
  · simp [hnone] at ha
  · exact absurd hf hfresh
  · rw [h, (State.sourceLost_notesOnly _).trouble_eq]
    rfl

/-- What a report of the Peer Table makes of the source. -/
theorem State.peerReport_source (s : State) :
    (s.grf.sourceMode = .localUnit → s.peerReport.grf = s.grf) ∧
      (s.grf.sourceMode = .follow → s.peerReport.grf.source = s.peerReport.lowestCandidate ∧
        (s.peerReport.grf.source.isSome = true →
          s.peerReport.grf = { s.grf with source := s.peerReport.grf.source }) ∧
        (s.peerReport.grf.source = none → s.grf.freshness ≠ .lost →
          s.peerReport.stc.trouble = { s.stc.trouble with bellowsLost := true } ∧
          s.peerReport.grf = { s.grf with
            source := none
            freshness := .lost
            staleTimer := none
            lostTimer := none
            level := 0 })) := by
  obtain ⟨-, hptb, hgrf, htrouble, -, -⟩ := State.peerReport_spec s
  have hcandidate : s.peerReport.lowestCandidate = s.lowestCandidate :=
    State.lowestCandidate_congr hptb (by rw [hgrf, State.followReport_ownGroup])
  have hvalues := State.followReport_grf s
  rw [hcandidate, htrouble, hgrf]
  refine ⟨fun hmode => by rw [hvalues, hmode], fun hmode => ?_⟩
  rw [hmode] at hvalues
  dsimp only at hvalues
  by_cases hlost : s.lowestCandidate = none ∧ s.grf.freshness ≠ .lost
  · rw [if_pos hlost] at hvalues
    obtain ⟨hnone, hfresh⟩ := hlost
    rw [hvalues, hnone]
    exact ⟨rfl, fun h => (by cases h), fun _ _ => ⟨State.followReport_trouble hmode hnone hfresh, rfl⟩⟩
  · rw [if_neg hlost] at hvalues
    rw [hvalues]
    exact ⟨rfl, fun _ => rfl, fun hnone hfresh => absurd ⟨hnone, hfresh⟩ hlost⟩

/-- Settles O47: the declared values are new just where the report follows. -/
theorem presenceFramesDeclareThePeer : Obligations.PresenceFramesDeclareThePeer := by
  intro s f rest hup hw hbuffer hkind h1 h12 hown hlow hhigh
  have hexec := exec_of_delivers (c := .presenceFrame) hup hw hbuffer (by simp [delivers, hkind])
  have hhand : (s.popped rest).handOn f = (s.popped rest).peerEvidence f := by
    rw [State.handOn_eq, State.heard_of_ne_engine (by omega)]
    simp [hkind, kindBellows, kindRegistration, kindOffer, kindAlert, kindQuery, kindPresence]
  have hpeer : (s.popped rest).isPeerAddress f.sender = true := State.isPeerAddress_iff.2 ⟨h1, h12, hown⟩
  have hknown : (s.popped rest).knownAfter f =
      some ⟨(f.byte 0).toNat, (f.byte 1).getLsbD 0, f.byte 2⟩ := by
    rw [State.knownAfter_eq, if_pos ⟨hkind, hlow, hhigh⟩]
  rw [hhand, State.peerEvidence_eq, if_pos hpeer, hknown] at hexec
  refine ⟨fun hlive hsame => ?_, fun hnew => ?_⟩
  · rw [if_pos ⟨hlive, hsame⟩] at hexec
    exact hexec
  · have hchanged : ¬(((s.popped rest).ptb.peer f.sender).live = true ∧
        ((s.popped rest).ptb.peer f.sender).declared =
          some ⟨(f.byte 0).toNat, (f.byte 1).getLsbD 0, f.byte 2⟩) := by
      rintro ⟨hlive, hsame⟩
      rcases hnew with h | h
      · simp [State.popped, h] at hlive
      · exact h hsame
    rw [if_neg hchanged] at hexec
    obtain ⟨hlocal, hfollow⟩ := State.peerReport_source ((s.popped rest).setPeer f.sender
      ⟨true, some (ms 350), some ⟨(f.byte 0).toNat, (f.byte 1).getLsbD 0, f.byte 2⟩⟩)
    obtain ⟨hcurrent, hptb, -, -, hofu, -⟩ := State.peerReport_spec ((s.popped rest).setPeer f.sender
      ⟨true, some (ms 350), some ⟨(f.byte 0).toNat, (f.byte 1).getLsbD 0, f.byte 2⟩⟩)
    refine ⟨_, hexec, hptb, hcurrent, hlocal, fun hmode => ?_, by rw [hofu]; rfl, by rw [hofu]; rfl,
      State.peerReport_trims _⟩
    obtain ⟨hsource, hsome, -⟩ := hfollow hmode
    exact ⟨hsource, hsome⟩

theorem State.followReport_eq (s : State) : s.followReport =
    if s.grf.sourceMode = .localUnit then s
    else match s.lowestCandidate with
      | some a => { s with grf := { s.grf with source := some a } }
      | none =>
        if s.grf.freshness = .lost then { s with grf := { s.grf with source := none } }
        else ({ s with
          stc := { s.stc with trouble := { s.stc.trouble with bellowsLost := true } }
          grf := { s.grf with source := none, freshness := .lost, staleTimer := none, lostTimer := none } } :
            State).setGroup s.grf.direction 0 := by
  rcases State.followReport_cases s with ⟨hmode, h⟩ | ⟨hmode, ⟨a, ha, h⟩ | ⟨ha, hf, h⟩ | ⟨ha, hf, h⟩⟩
  · rw [h, if_pos hmode]
  · rw [h, if_neg (by simp [hmode]), ha]
    rfl
  · rw [h, if_neg (by simp [hmode]), ha]
    dsimp only
    rw [if_pos hf]
    rfl
  · rw [h, if_neg (by simp [hmode]), ha]
    dsimp only
    rw [if_neg hf]
    rfl

/-- Settles O34. -/
theorem peerExpiryForgetsThePeer : Obligations.PeerExpiryForgetsThePeer := by
  refine ⟨fun s a hup hw hlive hexpiry => ?_, State.followReport_eq⟩
  have hmeaning : meaning (.peerExpiry a) s = (s.setPeer a .absent).peerReport := if_pos ⟨hw, hlive, hexpiry⟩
  obtain ⟨hlocal, hfollow⟩ := State.peerReport_source (s.setPeer a .absent)
  obtain ⟨hcurrent, hptb, -, -, -, hnotes⟩ := State.peerReport_spec (s.setPeer a .absent)
  refine ⟨_, (exec_of_up hup _).trans (congrArg _ hmeaning), hptb, hcurrent, hlocal, hfollow, ?_, ?_⟩
  · rw [hptb]
    exact State.peerReport_trims _
  · rw [hptb]
    exact hnotes

/-! ## Group changes (R111) -/

theorem State.placementEvent_of_playing {s : State} (h : s.playing = true) (e : PlacementEvent) : s.placementEvent e =
    if s.plu.suspended.isSome = true then { s with plu := { s.plu with heldEvents := s.plu.heldEvents ++ [e] } }
    else s.takeEvent e :=
  if_pos h

theorem State.groupChange_of_idle {s : State} (h : s.playing = false) (turned rose fell : Bool) :
    s.groupChange turned rose fell = s :=
  if_neg (by simp [h])

/-- The rise, the turn and the fall of a group change, in this order (R111). -/
theorem State.groupChange_of_playing {s : State} (h : s.playing = true) (turned rose fell : Bool) :
    s.groupChange turned rose fell =
      (let w := if rose then s.levelRise else s
       let x : State := if turned then (if w.plu.suspended.isSome = true then
          { w with plu := { w.plu with heldEvents := w.plu.heldEvents ++ [.turn] } } else w.reversal) else w
       if fell then (if x.plu.suspended.isSome = true then
          { x with plu := { x.plu with heldEvents := x.plu.heldEvents ++ [.fall] } } else x.takeFall) else x) := by
  have hrise : (if rose then s.levelRise else s).playing = true := by
    split
    · exact (State.NotesOnly.levelRise s).playing_eq.trans h
    · exact h
  have hgroup : s.groupChange turned rose fell =
      (let w := if rose then s.levelRise else s
       let x := if turned then w.placementEvent .turn else w
       if fell then x.placementEvent .fall else x) := if_pos h
  rw [hgroup]
  dsimp only
  generalize (if rose then s.levelRise else s) = w at hrise
  have hturn : (if turned then w.placementEvent .turn else w).playing = true := by
    split
    · exact (State.NotesOnly.placementEvent w _).playing_eq.trans hrise
    · exact hrise
  rw [State.placementEvent_of_playing hturn, State.placementEvent_of_playing hrise]
  rfl

/-- The group's new values, and the section levels where the level has changed (R96). -/
theorem State.regrouped_eq (s : State) (d : Direction) (level : Nat) : s.regrouped d level =
    if level = s.grf.level then { s with grf := { s.grf with direction := d, level := level } }
    else ({ s with grf := { s.grf with direction := d, level := level } } : State).recomputeLevels := by
  unfold State.regrouped
  by_cases h : level = s.grf.level
  · rw [if_pos h, if_neg (by simp [h])]
    rfl
  · rw [if_neg h, if_pos (by simpa using Ne.symm h)]
    rfl

theorem State.groupChange_none (s : State) : s.groupChange false false false = s := by
  unfold State.groupChange
  split <;> rfl

/-- A new direction and level are one group change, also where neither differs (R111). -/
theorem State.setGroup_eq (s : State) (d : Direction) (level : Nat) : s.setGroup d level =
    (s.regrouped d level).groupChange (s.grf.direction != d) (s.grf.level == 0 && level != 0)
      (s.grf.level != 0 && level == 0) := by
  unfold State.setGroup
  dsimp only
  by_cases h : ((s.grf.direction != d) || (s.grf.level != level)) = true
  · rw [if_pos h]
    rfl
  · rw [if_neg h]
    simp only [Bool.or_eq_true, bne_iff_ne, ne_eq, not_or, not_not] at h
    obtain ⟨hd, hl⟩ := h
    have hsame : s.regrouped d level = s.setGrf { s.grf with direction := d, level := level } :=
      if_neg (by simp [hl])
    have hrose : (s.grf.level == 0 && level != 0) = false := by
      rw [hl]
      cases level <;> rfl
    have hfell : (s.grf.level != 0 && level == 0) = false := by
      rw [hl]
      cases level <;> rfl
    rw [hsame, hrose, hfell, hd, bne_self_eq_false, State.groupChange_none]

theorem State.regrouped_playing (s : State) (d : Direction) (level : Nat) : (s.regrouped d level).playing = s.playing :=
  (State.LevelsOnly.regrouped s d level).notesOnly.playing_eq

/-- A rise of L, with the placements it makes or owes (R65, R58). -/
theorem State.levelRise_eq (s : State) : s.levelRise =
    (let calm : State := { s with plu := { s.plu with
      breathTimer := none
      heldEvents := s.plu.heldEvents.filter (· ≠ .breathExpiry) } }
     let owed := s.plu.owed ++ (s.plu.held.filter (·.state = .armed)).map (·.contact)
     let risen : State := { calm with plu := { calm.plu with
      held := s.plu.held.map fun r => if r.state = .armed then { r with state := .placed } else r
      owed := owed } }
     if s.stc.station = .run then (if s.plu.suspended.isSome = true then risen else State.placeAll owed risen)
     else calm) := by
  have hevents : s.plu.heldEvents.filter (· != .breathExpiry) = s.plu.heldEvents.filter (· ≠ .breathExpiry) :=
    List.filter_congr fun e _ => by cases e <;> simp
  have harmed : s.plu.held.filter (·.state == .armed) = s.plu.held.filter (·.state = .armed) :=
    List.filter_congr fun r _ => by cases r.state <;> rfl
  unfold State.levelRise
  rw [hevents, harmed]
  rfl

/-- Settles O45: an accepted frame is one group change with its values, or loses the source. -/
theorem bellowsFramesFromTheSourceAreFollowed : Obligations.BellowsFramesFromTheSourceAreFollowed := by
  refine ⟨fun s f rest hup hw hbuffer hkind h1 h12 => ?_, fun s d level => ⟨fun hidle => ?_, fun hplay => ?_⟩,
    fun s => ⟨⟨fun h => ?_, fun h => ?_⟩, rfl, fun c cs => rfl⟩⟩
  · have hexec := exec_of_delivers (c := .bellowsFrame) hup hw hbuffer (by simp [delivers, hkind])
    have hstation : f.fromStation = true := by simp [RxFrame.fromStation, h1, h12]
    rw [State.handOn_eq, if_pos hkind, if_pos hstation, State.heard_of_ne_engine (by omega)] at hexec
    have hpopped : s.popped rest = { s with lkc := { s.lkc with rxBuffer := rest } } := rfl
    rw [hpopped] at hexec
    dsimp only
    generalize ({ s with lkc := { s.lkc with rxBuffer := rest } } : State).peerEvidence f = s' at hexec ⊢
    refine ⟨_, hexec, ?_⟩
    by_cases haccepted :
        s'.grf.sourceMode = .follow ∧ s'.grf.source = some f.sender ∧ (f.byte 0).toNat = s'.grf.ownGroup
    · have htake : s'.takeBellows f = s'.acceptBellows (directionOf ((f.byte 1).getLsbD 0)) (lowBits 7 (f.byte 2))
          ((f.byte 1).getLsbD 1) := if_pos haccepted
      rw [htake]
      cases hlost : (f.byte 1).getLsbD 1 with
      | true =>
        have haccept : s'.acceptBellows (directionOf ((f.byte 1).getLsbD 0)) (lowBits 7 (f.byte 2)) true =
            s'.sourceLost := rfl
        have hnotes := State.sourceLost_notesOnly s'
        rw [haccept, hnotes.trouble_eq, hnotes.grf_eq]
        exact ⟨fun h => absurd haccepted h, fun _ h => absurd h (by simp), fun _ _ => ⟨rfl, rfl, rfl⟩, hnotes⟩
      | false =>
        have haccept : s'.acceptBellows (directionOf ((f.byte 1).getLsbD 0)) (lowBits 7 (f.byte 2)) false =
            ({ s' with
              stc := { s'.stc with trouble := { s'.stc.trouble with bellowsLost := false } }
              grf := { s'.grf with freshness := .fresh, staleTimer := some (ms 60), lostTimer := some (ms 500) } } :
                State).setGroup (directionOf ((f.byte 1).getLsbD 0)) (lowBits 7 (f.byte 2)) := rfl
        have hnotes := State.setGroup_notesOnly ({ s' with
          stc := { s'.stc with trouble := { s'.stc.trouble with bellowsLost := false } }
          grf := { s'.grf with freshness := .fresh, staleTimer := some (ms 60), lostTimer := some (ms 500) } } : State)
          (directionOf ((f.byte 1).getLsbD 0)) (lowBits 7 (f.byte 2))
        rw [haccept, hnotes.trouble_eq, hnotes.grf_eq]
        exact ⟨fun h => absurd haccepted h, fun _ _ => ⟨rfl, rfl, rfl⟩, fun _ h => absurd h (by simp), hnotes⟩
    · have htake : s'.takeBellows f = s' := if_neg haccepted
      rw [htake]
      exact ⟨fun _ => rfl, fun h => absurd h haccepted, fun h => absurd h haccepted, State.NotesOnly.refl s'⟩
  · rw [State.setGroup_eq, State.groupChange_of_idle (by rw [State.regrouped_playing, hidle]), State.regrouped_eq]
  · dsimp only
    rw [State.setGroup_eq, State.groupChange_of_playing (by rw [State.regrouped_playing, hplay]), State.regrouped_eq]
    have hfell : (s.grf.level = 0 ∨ level ≠ 0) ↔ ¬(s.grf.level ≠ 0 ∧ level = 0) := by omega
    simp only [Bool.and_eq_true, beq_iff_eq, bne_iff_ne, hfell, ite_not]
  · rw [State.levelRise_eq]
    exact if_neg h
  · rw [State.levelRise_eq]
    exact if_pos h

end Sys2Proof.Machine
end

section
/-! PROOFS. The Level Unit: what a recomputation, a restart report and a count's report do to each slot. -/

namespace Sys2Proof.Machine

/-! ## One slot at a time -/

/-- All that the Level Unit and the update table hold of one slot. -/
structure SlotView where
  level : Nat
  count : Nat
  lastSent : Nat
  removalPending : Bool
  justRestarted : Bool
  threshold : Nat
  entry : Option TableEntry

def State.slotView (s : State) (k : Slot) : SlotView where
  level := s.lvu.sectionLevel.get k
  count := s.lvu.slotCount.get k
  lastSent := s.lvu.lastSent.get k
  removalPending := s.lvu.removalPending.get k
  justRestarted := s.lvu.justRestarted.get k
  threshold := s.lvu.threshold
  entry := s.lkc.updates.levels.get k

/-- LEVEL(k, S) is written and last-sent becomes S. -/
def SlotView.written (v : SlotView) (k : Slot) : SlotView :=
  { v with lastSent := v.level, entry := some ⟨.level k v.level, 0⟩ }

/-- The slot has notes and its level calls for a LEVEL write (R100, R103). -/
def SlotView.due (v : SlotView) : Bool :=
  0 < v.count && levelDue (if v.justRestarted then 1 else v.threshold) v.level v.lastSent

/-- A slot examined (R100). -/
def SlotView.examined (k : Slot) (v : SlotView) : SlotView :=
  if v.due then v.written k else v

/-- A slot met by a restart report (R102). -/
def SlotView.restarted (k : Slot) (v : SlotView) : SlotView :=
  if 0 < v.count then { v.written k with justRestarted := true } else v

namespace State

/-- What a LEVEL write does (R100, R155). -/
theorem writeLevel_eq (s : State) (k : Slot) : s.writeLevel k = { s with
    lvu := { s.lvu with lastSent := s.lvu.lastSent.set k (s.lvu.sectionLevel.get k) }
    lkc := { s.lkc with
      updates := { s.lkc.updates with
        levels := s.lkc.updates.levels.set k (some ⟨.level k (s.lvu.sectionLevel.get k), 0⟩) }
      tx := s.lkc.tx.map fun a =>
        if a.source = .table (.level k) then { a with rewritten := true, withdraw := false } else a } } := by
  unfold writeLevel
  dsimp only
  rw [writeEntry_eq_mark]
  rfl

theorem writeLevel_slotView (s : State) (k j : Slot) : (s.writeLevel k).slotView j =
    if j = k then (s.slotView k).written k else s.slotView j := by
  rw [writeLevel_eq]
  unfold slotView
  by_cases h : j = k
  · simp [h, SlotView.written]
  · simp [h, Ne.symm h]

theorem examineLevel_slotView (s : State) (k j : Slot) : (s.examineLevel k).slotView j =
    if j = k then (s.slotView k).examined k else s.slotView j := by
  unfold examineLevel SlotView.examined
  have hdue : (s.slotView k).due = true ↔ 0 < s.lvu.slotCount.get k ∧ s.lvu.due k = true := by
    rw [SlotView.due, Bool.and_eq_true, decide_eq_true_eq]
    rfl
  by_cases h : 0 < s.lvu.slotCount.get k ∧ s.lvu.due k = true
  · rw [if_pos h, if_pos (hdue.2 h), writeLevel_slotView]
  · rw [if_neg h, if_neg (mt hdue.1 h)]
    split <;> simp_all

theorem restartLevel_slotView (s : State) (k j : Slot) : (s.restartLevel k).slotView j =
    if j = k then (s.slotView k).restarted k else s.slotView j := by
  unfold restartLevel SlotView.restarted
  by_cases h : 0 < s.lvu.slotCount.get k
  · have hcount : 0 < (s.slotView k).count := h
    have hwrite := writeLevel_slotView s k j
    rw [if_pos h, if_pos hcount]
    unfold slotView at hwrite ⊢
    dsimp only at hwrite ⊢
    simp only [State.setLvu_lvu, State.setLvu_lkc] at hwrite ⊢
    by_cases hj : j = k
    · rw [if_pos hj] at hwrite ⊢
      subst hj
      simp only [SlotView.written, SlotView.mk.injEq] at hwrite ⊢
      simp [hwrite]
    · rw [if_neg hj] at hwrite ⊢
      simp only [SlotView.mk.injEq] at hwrite ⊢
      simp [hwrite, Ne.symm hj]
  · have hcount : ¬0 < (s.slotView k).count := h
    rw [if_neg h, if_neg hcount]
    split <;> simp_all

/-- What is done to each slot of a list in turn, where doing it to one slot leaves the others. -/
theorem slotView_foldl {f : State → Slot → State} {g : Slot → SlotView → SlotView}
    (hf : ∀ s k j, (f s k).slotView j = if j = k then g k (s.slotView k) else s.slotView j) {l : List Slot}
    (hl : l.Nodup) (s : State) (j : Slot) :
    (l.foldl f s).slotView j = if j ∈ l then g j (s.slotView j) else s.slotView j := by
  induction l generalizing s with
  | nil => simp
  | cons k l ih =>
    obtain ⟨hk, hl⟩ := List.nodup_cons.1 hl
    rw [List.foldl_cons, ih hl, hf]
    by_cases hj : j = k
    · subst hj
      simp [hk]
    · simp [hj]

theorem recomputeLevels_slotView (s : State) (k : Slot) : s.recomputeLevels.slotView k =
    { s.slotView k with level := s.sectionLevels.get k }.examined k := by
  unfold recomputeLevels
  rw [slotView_foldl examineLevel_slotView (by decide), if_pos (mem_slots k)]
  rfl

theorem restartLevels_slotView (s : State) (k : Slot) : s.restartLevels.slotView k = (s.slotView k).restarted k := by
  unfold restartLevels
  rw [slotView_foldl restartLevel_slotView (by decide), if_pos (mem_slots k)]

/-! ## What a recomputation leaves -/

/-- `t` differs from `s` in the values of the Level Unit that a LEVEL write sets, the LEVEL entries, and the marks of the
attempt in flight. -/
def LevelsWritten (s t : State) : Prop :=
  t = { s with
    lvu := { s.lvu with
      sectionLevel := t.lvu.sectionLevel
      lastSent := t.lvu.lastSent
      justRestarted := t.lvu.justRestarted }
    lkc := { s.lkc with updates := { s.lkc.updates with levels := t.lkc.updates.levels }, tx := t.lkc.tx } }

theorem LevelsWritten.refl (s : State) : LevelsWritten s s := rfl

theorem LevelsWritten.trans {s t u : State} (h : LevelsWritten s t) (g : LevelsWritten t u) : LevelsWritten s u := by
  unfold LevelsWritten at *
  rw [g, h]

theorem LevelsWritten.foldl {f : State → Slot → State} (hf : ∀ s k, LevelsWritten s (f s k)) (l : List Slot) (s : State) :
    LevelsWritten s (l.foldl f s) := by
  induction l generalizing s with
  | nil => exact .refl s
  | cons k l ih => exact (hf s k).trans (ih _)

theorem writeLevel_written (s : State) (k : Slot) : LevelsWritten s (s.writeLevel k) := by
  rw [writeLevel_eq]
  rfl

theorem examineLevel_written (s : State) (k : Slot) : LevelsWritten s (s.examineLevel k) := by
  unfold examineLevel
  split
  · exact writeLevel_written s k
  · exact .refl s

theorem restartLevel_written (s : State) (k : Slot) : LevelsWritten s (s.restartLevel k) := by
  unfold restartLevel
  split
  · exact (writeLevel_written s k).trans rfl
  · exact .refl s

theorem recomputeLevels_written (s : State) : LevelsWritten s s.recomputeLevels := by
  have hlevels : LevelsWritten s (s.setLvu { s.lvu with sectionLevel := s.sectionLevels }) := rfl
  exact hlevels.trans (LevelsWritten.foldl examineLevel_written _ _)

theorem restartLevels_written (s : State) : LevelsWritten s s.restartLevels :=
  LevelsWritten.foldl restartLevel_written _ _

theorem recomputeLevels_justRestarted (s : State) :
    s.recomputeLevels.lvu.justRestarted = s.lvu.justRestarted := by
  refine PerSlot.ext_get fun k => ?_
  have h := congrArg SlotView.justRestarted (recomputeLevels_slotView s k)
  unfold SlotView.examined at h
  split at h <;> exact h

end State

/-! ## What evidence leaves of the Group Follower -/

namespace State

/-- A report changes no more of the Group Follower than the source, its freshness and the level. -/
theorem followReport_grf_eq (s : State) : s.followReport.grf = { s.grf with
    source := s.followReport.grf.source
    freshness := s.followReport.grf.freshness
    staleTimer := s.followReport.grf.staleTimer
    lostTimer := s.followReport.grf.lostTimer
    level := s.followReport.grf.level } := by
  rw [followReport_grf]
  split
  · rfl
  · split <;> rfl

theorem peerEvidence_grf_eq (s : State) (f : RxFrame) : (s.peerEvidence f).grf = { s.grf with
    source := (s.peerEvidence f).grf.source
    freshness := (s.peerEvidence f).grf.freshness
    staleTimer := (s.peerEvidence f).grf.staleTimer
    lostTimer := (s.peerEvidence f).grf.lostTimer
    level := (s.peerEvidence f).grf.level } := by
  rw [peerEvidence_eq]
  split
  · split
    · rfl
    · have hgrf := (peerReport_spec (s.setPeer f.sender ⟨true, some (ms 350), s.knownAfter f⟩)).2.2.1
      rw [hgrf]
      exact followReport_grf_eq _
  · rfl

theorem peerEvidence_mst (s : State) (f : RxFrame) : (s.peerEvidence f).mst = s.mst := by
  rw [peerEvidence_eq]
  split
  · split
    · rfl
    · exact (peerReport_spec _).2.2.2.2.2.mst_eq
  · rfl

theorem heard_grf (s : State) (f : RxFrame) : (s.heard f).grf = (s.peerEvidence f).grf := by
  unfold heard
  split <;> rfl

theorem adoptRegistration_grf (s : State) (n : Nat) :
    (s.adoptRegistration n).grf = { s.grf with registration := n } :=
  (adoptRegistration_notesOnly s n).grf_eq

theorem handOn_of_registration {f : RxFrame} (h : f.kind = kindRegistration) (s : State) :
    s.handOn f = if f.fromStation = true then (s.heard f).takeRegistration f else s.heard f := by
  rw [handOn_eq]
  simp [h, kindBellows, kindRegistration]

end State

/-- A section level, its clamp written out (R96). -/
theorem sectionLevel_eq (level gain : Nat) (offset : Int) :
    sectionLevel level gain offset = (max 0 (min 127 ((((level * gain + 32) / 64 : Nat) : Int) + offset))).toNat := by
  unfold sectionLevel clampInt
  generalize (((level * gain + 32) / 64 : Nat) : Int) + offset = x
  split_ifs <;> omega

/-- The rule of R100 and R103 for a slot's LEVEL write. -/
theorem SlotView.due_iff (v : SlotView) : v.due = true ↔ 0 < v.count ∧
    ((¬v.justRestarted = true ∧ v.threshold ≤ max v.level v.lastSent - min v.level v.lastSent) ∨
      ((v.justRestarted = true ∨ v.level = 0 ∨ v.level = 127) ∧ v.level ≠ v.lastSent)) := by
  unfold SlotView.due levelDue
  cases v.justRestarted
  · simp
  · simp
    omega

theorem State.reportCount_rises {s : State} {k : Slot} (hold : s.lvu.slotCount.get k = 0) (hnew : 0 < s.nrs.count k) :
    s.reportCount k = { s with
      lvu := { s.lvu with
        slotCount := s.lvu.slotCount.set k (s.nrs.count k)
        lastSent := s.lvu.lastSent.set k (s.lvu.sectionLevel.get k)
        removalPending := s.lvu.removalPending.set k false
        justRestarted := s.lvu.justRestarted.set k false }
      lkc := { s.lkc with
        updates := if s.lvu.removalPending.get k = true then
          { s.lkc.updates with
            levels := s.lkc.updates.levels.set k (some ⟨.level k (s.lvu.sectionLevel.get k), 0⟩) } else s.lkc.updates
        tx := if s.lvu.removalPending.get k = true then s.lkc.tx.map fun a =>
            if a.source = .table (.level k) then { a with rewritten := true, withdraw := false } else a
          else s.lkc.tx } } := by
  have hset {α : Type} (v : PerSlot α) (a : α) : (v.set k a).set k a = v.set k a :=
    PerSlot.ext_get fun j => by simp only [PerSlot.get_set]; split <;> rfl
  unfold State.reportCount State.levelRises
  dsimp only
  rw [if_pos ⟨hold, hnew⟩]
  by_cases hpending : s.lvu.removalPending.get k = true
  · simp only [hpending, if_true, State.setLvu_lvu, State.writeLevel_eq]
    simp only [State.setLvu, hset]
  · have hclear : s.lvu.removalPending.set k false = s.lvu.removalPending :=
      PerSlot.ext_get fun j => by
        rw [PerSlot.get_set]
        split
        · next h => rw [← h]; simpa using (Bool.eq_false_iff.2 hpending).symm
        · rfl
    simp only [State.setLvu_lvu, hpending, if_false, hclear, Bool.false_eq_true]
    rfl

theorem State.reportCount_falls {s : State} {k : Slot} (hold : 0 < s.lvu.slotCount.get k) (hnew : s.nrs.count k = 0) :
    s.reportCount k =
      (s.setLvu { s.lvu with slotCount := s.lvu.slotCount.set k (s.nrs.count k) }).removeLevel k := by
  unfold State.reportCount
  dsimp only
  rw [if_neg (by omega), if_pos ⟨hold, hnew⟩]

theorem State.reportCount_stays {s : State} {k : Slot} (h : s.lvu.slotCount.get k = 0 ↔ s.nrs.count k = 0) :
    s.reportCount k = s.setLvu { s.lvu with slotCount := s.lvu.slotCount.set k (s.nrs.count k) } := by
  unfold State.reportCount
  dsimp only
  rw [if_neg (by omega), if_neg (by omega)]

theorem State.removeLevel_of_some {s : State} {k : Slot} (h : s.lkc.updates.levels.get k ≠ none) : s.removeLevel k =
    if s.keyInFlight (.level k) = true then { s with
      lvu := { s.lvu with removalPending := s.lvu.removalPending.set k true }
      lkc := { s.lkc with tx := s.lkc.tx.map fun a => { a with withdraw := true } } }
    else { s with lkc := { s.lkc with
      updates := { s.lkc.updates with levels := s.lkc.updates.levels.set k none } } } := by
  obtain ⟨e, he⟩ := Option.ne_none_iff_exists'.1 h
  have hget : s.lkc.updates.get (.level k) = some e := he
  unfold State.removeLevel
  rw [hget]
  dsimp only
  rw [State.removeEntry]
  split <;> rfl

/-- The section levels after a number's adoption, one by one (R96). -/
theorem State.adoptRegistration_level (s : State) (n : Nat) (k : Slot) :
    (s.adoptRegistration n).lvu.sectionLevel.get k = sectionLevel s.grf.level ((s.mst.registration n).gain.get k)
      ((s.mst.registration n).offset.get k) := by
  unfold State.adoptRegistration
  rw [State.recomputeLevels_sectionLevel]
  exact PerSlot.get_ofFn _ k

/-- What a number's adoption does to each slot: its level follows, and where a write is due it is written (R100, R103). -/
theorem State.adoptRegistration_slotView (s : State) (n : Nat) (k : Slot) :
    (s.adoptRegistration n).slotView k =
      { s.slotView k with level := (s.adoptRegistration n).lvu.sectionLevel.get k }.examined k := by
  unfold State.adoptRegistration
  rw [State.recomputeLevels_slotView, State.recomputeLevels_sectionLevel]
  rfl

theorem State.adoptRegistration_written (s : State) (n : Nat) : s.adoptRegistration n = { s with
    grf := { s.grf with registration := n }
    lvu := { s.lvu with
      sectionLevel := (s.adoptRegistration n).lvu.sectionLevel
      lastSent := (s.adoptRegistration n).lvu.lastSent }
    lkc := { s.lkc with
      updates := { s.lkc.updates with levels := (s.adoptRegistration n).lkc.updates.levels }
      tx := (s.adoptRegistration n).lkc.tx } } := by
  have h := State.recomputeLevels_written (s.setGrf { s.grf with registration := n })
  have hj := State.recomputeLevels_justRestarted (s.setGrf { s.grf with registration := n })
  unfold State.LevelsWritten at h
  rw [hj] at h
  unfold State.adoptRegistration
  generalize (s.setGrf { s.grf with registration := n }).recomputeLevels = t at h
  exact h

theorem State.adoptRegistration_others (s : State) (n : Nat) :
    (s.adoptRegistration n).lkc.updates.others = s.lkc.updates.others := by
  unfold State.adoptRegistration
  rw [State.recomputeLevels_others]
  rfl

theorem State.adoptRegistration_current (s : State) (n : Nat) : (s.adoptRegistration n).SectionLevelsCurrent := by
  unfold State.adoptRegistration
  exact State.recomputeLevels_current _

/-- A frame of the own group taken in mode SHARED, or ignored (R120). -/
theorem State.takeRegistration_eq (s : State) (f : RxFrame) : s.takeRegistration f =
    if s.grf.registrationMode = .shared ∧ (f.byte 0).toNat = s.grf.ownGroup then
      s.adoptRegistration ((f.byte 1).toNat % 16) else s := rfl

/-- Settles O46: the frame's number is adopted after its evidence, and each slot is examined on its own. -/
theorem registrationFramesAreAdoptedInTheGroup : Obligations.RegistrationFramesAreAdoptedInTheGroup := by
  refine ⟨fun s f rest hup hw hbuffer hkind => ?_, fun s k => ⟨fun hold hnew => ?_, fun hold hnew => ⟨fun hentry => ?_,
    fun hentry hflight => ?_, fun hentry hflight => ?_⟩, fun h => ?_⟩⟩
  · have hexec := exec_of_delivers (c := .registrationFrame) hup hw hbuffer (by simp [delivers, hkind])
    rw [State.handOn_of_registration hkind] at hexec
    have hpopped : s.popped rest = { s with lkc := { s.lkc with rxBuffer := rest } } := rfl
    have hgrf := State.peerEvidence_grf_eq (s.popped rest) f
    have hmst := State.peerEvidence_mst (s.popped rest) f
    have hothers := congrArg UpdateTable.registration (State.peerEvidence_others (s.popped rest) f)
    have hheard : f.sender < 14 → (s.popped rest).heard f = (s.popped rest).peerEvidence f := fun h =>
      State.heard_of_ne_engine (by omega)
    have hheardGrf := State.heard_grf (s.popped rest) f
    have hheardOthers := congrArg UpdateTable.registration (State.heard_others (s.popped rest) f)
    dsimp only
    rw [← hpopped]
    generalize (s.popped rest).heard f = u at hexec hheard hheardGrf hheardOthers
    generalize (s.popped rest).peerEvidence f = s' at hexec hgrf hmst hothers hheard hheardGrf ⊢
    have hregistration : s'.grf.registration = s.grf.registration := by rw [hgrf]; rfl
    have hmode : s'.grf.registrationMode = s.grf.registrationMode := by rw [hgrf]; rfl
    have hgroup : s'.grf.ownGroup = s.grf.ownGroup := by rw [hgrf]; rfl
    by_cases hstation : f.fromStation = true
    · have h12 : 1 ≤ f.sender ∧ f.sender ≤ 12 := by simpa [RxFrame.fromStation] using hstation
      have hu := hheard (by omega)
      subst hu
      rw [if_pos hstation, State.takeRegistration_eq, hmode, hgroup] at hexec
      by_cases hadopted : s.grf.registrationMode = .shared ∧ (f.byte 0).toNat = s.grf.ownGroup
      · rw [if_pos hadopted] at hexec
        have hkept := congrArg UpdateTable.registration
          (State.adoptRegistration_others u ((f.byte 1).toNat % 16))
        have htgrf := State.adoptRegistration_grf u ((f.byte 1).toNat % 16)
        have hcurrent := State.adoptRegistration_current u ((f.byte 1).toNat % 16)
        have hwritten := State.adoptRegistration_written u ((f.byte 1).toNat % 16)
        have hlevel := State.adoptRegistration_level u ((f.byte 1).toNat % 16)
        have hviews := State.adoptRegistration_slotView u ((f.byte 1).toNat % 16)
        generalize u.adoptRegistration ((f.byte 1).toNat % 16) = t at hexec hkept htgrf hcurrent hwritten hlevel hviews
        refine ⟨t, hexec, hkept.trans hothers, ?_, fun _ => ⟨?_, hcurrent, hwritten, fun k => ⟨?_, fun hdue => ?_,
          fun hdue => ?_⟩⟩, fun h => absurd ⟨h12.1, h12.2, hadopted.1, hadopted.2⟩ h⟩
        · rw [htgrf]
          exact hmode
        · rw [htgrf]
        · rw [hlevel, sectionLevel_eq, hmst]
          rfl
        · have hview := hviews k
          rw [SlotView.examined, if_pos ((SlotView.due_iff _).2 hdue)] at hview
          exact ⟨congrArg SlotView.entry hview, congrArg SlotView.lastSent hview⟩
        · have hview := hviews k
          rw [SlotView.examined, if_neg (mt (SlotView.due_iff _).1 hdue)] at hview
          exact ⟨congrArg SlotView.entry hview, congrArg SlotView.lastSent hview⟩
      · rw [if_neg hadopted] at hexec
        exact ⟨u, hexec, hothers, hmode, fun h => absurd ⟨h.2.2.1, h.2.2.2⟩ hadopted, fun _ => ⟨hregistration, fun _ => rfl⟩⟩
    · rw [if_neg hstation] at hexec
      have h12 : ¬(1 ≤ f.sender ∧ f.sender ≤ 12) := by simpa [RxFrame.fromStation] using hstation
      refine ⟨u, hexec, hheardOthers, ?_, fun h => absurd ⟨h.1, h.2.1⟩ h12, fun _ => ⟨?_, hheard⟩⟩
      · rw [hheardGrf, hmode]
      · rw [hheardGrf, hregistration]
  · dsimp only
    rw [State.reportCount_rises hold hnew]
    exact ⟨rfl, rfl⟩
  · dsimp only
    rw [State.reportCount_falls hold hnew]
    unfold State.removeLevel
    simp [UpdateTable.get, hentry]
    rfl
  · dsimp only
    rw [State.reportCount_falls hold hnew, State.removeLevel_of_some (s := s.setLvu { s.lvu with
      slotCount := s.lvu.slotCount.set k (s.nrs.count k) }) hentry, if_neg (by rw [Bool.not_eq_true]; exact hflight)]
    rfl
  · dsimp only
    rw [State.reportCount_falls hold hnew, State.removeLevel_of_some (s := s.setLvu { s.lvu with
      slotCount := s.lvu.slotCount.set k (s.nrs.count k) }) hentry, if_pos (by exact hflight)]
    rfl
  · exact State.reportCount_stays h

end Sys2Proof.Machine
end

section
/-! PROOFS. The ends of notes: what ending one entry does to the roster, the note queue, the counters and the attempt in
flight, said once for every ending; the ends of victims, of staccato notes, of trimmed slots and of a panic. -/

namespace Sys2Proof.Machine

/-! ## The fate of an ended entry -/

/-- What ending an entry comes to (R81): nothing for an ENDING entry; the withdrawal of a START; an end owed by a frame in
flight; the NOTE END in the place of a REFRESH-START; or the NOTE END at the end of the queue. -/
inductive Fate where
  | stands
  | withdrawn
  | owed
  | replaced
  | appended
deriving DecidableEq

/-- The fate of an entry, by its state, its frame and whether a frame of its own is in flight. -/
def RosterEntry.fate (e : RosterEntry) (inFlight : Bool) : Fate :=
  match e.state with
  | .ending => .stands
  | .starting => if inFlight then .owed else .withdrawn
  | .sounding => if e.queued = .refreshStart then (if inFlight then .owed else .replaced) else .appended

/-- The entry as its fate leaves it, or nothing where it is freed. -/
def Fate.entry (a : EndArticulation) (e : RosterEntry) : Fate → Option RosterEntry
  | .stands => some e
  | .withdrawn => none
  | .owed => some (e.toEnding a)
  | .replaced | .appended => some { e.toEnding a with queued := .stop }

/-- The note queue as the fate of the entry of `tag` leaves it. -/
def Fate.queue (tag : Nat) (a : EndArticulation) (q : List QueueItem) : Fate → List QueueItem
  | .stands | .owed => q
  | .withdrawn => q.filter fun i => i.frame.tag? != some tag
  | .replaced => q.map fun i => if i.frame.tag? = some tag then ⟨.stop tag a, 0⟩ else i
  | .appended => q ++ [⟨.stop tag a, 0⟩]

/-- A NOTE END is queued. -/
def Fate.sends (f : Fate) : Bool := f = .replaced || f = .appended

/-- Station Control as the fate leaves it: a NOTE END queued with STOLEN is counted. -/
def Fate.control (a : EndArticulation) (c : StationControl) (f : Fate) : StationControl :=
  if f.sends = true ∧ a = .stolen then
    { c with counters := { c.counters with stolenNotes := satAdd c.counters.stolenNotes 1 } }
  else c

/-- The attempt in flight as the fate leaves it: an owed end holds its withdrawal. -/
def Fate.attempt (tx : Option Attempt) (f : Fate) : Option Attempt :=
  if f = .owed then tx.map fun a => { a with withdraw := true } else tx

namespace State

/-! ## What reporting a count leaves -/

theorem writeLevel_tx_of_head {s : State} (h : s.queueInFlight = true) (k : Slot) : (s.writeLevel k).lkc.tx = s.lkc.tx := by
  obtain ⟨a, htx, hhead⟩ := queueInFlight_iff.1 h
  exact (s.writeEntry_tx _ _).trans (by simp [htx, hhead])

theorem removeLevel_tx_of_head {s : State} (h : s.queueInFlight = true) (k : Slot) : (s.removeLevel k).lkc.tx = s.lkc.tx := by
  obtain ⟨a, htx, hhead⟩ := queueInFlight_iff.1 h
  have hkey : s.keyInFlight (.level k) = false := by simp [keyInFlight, htx, hhead]
  unfold removeLevel
  split
  · rfl
  · simp [hkey, removeEntry, putEntry]

theorem reportCount_tx_of_head {s : State} (h : s.queueInFlight = true) (k : Slot) :
    (s.reportCount k).lkc.tx = s.lkc.tx := by
  unfold reportCount
  dsimp only
  split
  · unfold levelRises
    dsimp only
    split
    · refine writeLevel_tx_of_head ?_ k
      exact h
    · rfl
  · split
    · refine removeLevel_tx_of_head ?_ k
      exact h
    · rfl

theorem reportCount_queueInFlight (s : State) (k : Slot) : (s.reportCount k).queueInFlight = s.queueInFlight :=
  (LevelsOnly.reportCount s k).queueInFlight_eq

/-! ## Ending one entry -/

/-- What becomes of an entry that is ended now. -/
def fate (s : State) (e : RosterEntry) : Fate := e.fate (s.tagInFlight e.tag)

/-- `t` is `s` after the entry of `tag` met the fate `f`, ended with `a`, as far as the roster, the queue, the counters
and a note frame in flight go. -/
structure EndsAs (s t : State) (tag : Nat) (a : EndArticulation) (f : Fate) : Prop where
  nrs : t.nrs = { s.nrs with roster := s.nrs.roster.filterMap fun x => if x.tag = tag then f.entry a x else some x }
  queue : t.lkc.noteQueue = f.queue tag a s.lkc.noteQueue
  stc : t.stc = f.control a s.stc
  attempt : s.queueInFlight = true → t.lkc.tx = f.attempt s.lkc.tx
  inFlight : t.queueInFlight = s.queueInFlight

/-- A change of one entry, as a `filterMap`. -/
theorem mapEntry_filterMap (s : State) (tag : Nat) (f : RosterEntry → RosterEntry) : (s.mapEntry tag f).nrs =
    { s.nrs with roster := s.nrs.roster.filterMap fun x => if x.tag = tag then some (f x) else some x } := by
  simp only [mapEntry, setNrs_nrs]
  rw [← List.filterMap_eq_map]
  refine congrArg (fun r => ({ s.nrs with roster := r } : NoteRoster)) ?_
  exact congrArg (List.filterMap · _) (funext fun x => by simp only [Function.comp]; split <;> rfl)

theorem freeEntry_filterMap (s : State) (tag : Nat) : (s.freeEntry tag).nrs =
    { s.nrs with roster := s.nrs.roster.filterMap fun x => if x.tag = tag then none else some x } := by
  simp only [freeEntry, setNrs_nrs]
  rw [← List.filterMap_eq_filter]
  refine congrArg (fun r => ({ s.nrs with roster := r } : NoteRoster)) ?_
  refine congrArg (List.filterMap · _) (funext fun x => ?_)
  by_cases hx : x.tag = tag <;> simp [hx, Option.guard]

theorem holdWithdrawal_queueInFlight (s : State) (held : Bool) : (s.holdWithdrawal held).queueInFlight = s.queueInFlight := by
  have htx : (s.holdWithdrawal held).lkc.tx = s.lkc.tx.map fun a => { a with withdraw := held } := rfl
  unfold queueInFlight
  rw [htx]
  cases s.lkc.tx <;> rfl

theorem countIfStolen_stc (s : State) (a : EndArticulation) : (s.countIfStolen a).stc =
    if a = .stolen then { s.stc with counters := { s.stc.counters with
      stolenNotes := satAdd s.stc.counters.stolenNotes 1 } } else s.stc := by
  unfold countIfStolen
  split <;> rfl

namespace EndsAs

/-- The report of a count after it leaves what an ending does. -/
theorem reported {s t : State} {tag : Nat} {a : EndArticulation} {f : Fate} (h : EndsAs s t tag a f) (k : Slot) :
    EndsAs s (t.reportCount k) tag a f where
  nrs := (t.reportCount_nrs k).trans h.nrs
  queue := (t.reportCount_noteQueue k).trans h.queue
  stc := (t.reportCount_stc k).trans h.stc
  attempt hflight := (reportCount_tx_of_head (h.inFlight.trans hflight) k).trans (h.attempt hflight)
  inFlight := (t.reportCount_queueInFlight k).trans h.inFlight

theorem stands (s : State) (tag : Nat) (a : EndArticulation) : EndsAs s s tag a .stands where
  nrs := by simp [Fate.entry]
  queue := rfl
  stc := rfl
  attempt _ := rfl
  inFlight := rfl

theorem owed (s : State) (tag : Nat) (a : EndArticulation) :
    EndsAs s ((s.mapEntry tag (·.toEnding a)).holdWithdrawal true) tag a .owed where
  nrs := s.mapEntry_filterMap tag _
  queue := rfl
  stc := rfl
  attempt _ := rfl
  inFlight := holdWithdrawal_queueInFlight _ true

theorem withdrawn (s : State) (tag : Nat) (a : EndArticulation) :
    EndsAs s ((s.withdrawTag tag).freeEntry tag) tag a .withdrawn where
  nrs := freeEntry_filterMap (s.withdrawTag tag) tag
  queue := rfl
  stc := rfl
  attempt _ := rfl
  inFlight := rfl

theorem replaced (s : State) (tag : Nat) (a : EndArticulation) :
    EndsAs s (((s.mapEntry tag fun e => { e.toEnding a with queued := .stop }).replaceTag tag (.stop tag a)).countIfStolen a)
      tag a .replaced where
  nrs := (countIfStolen_nrs _ a).trans (s.mapEntry_filterMap tag _)
  queue := by rw [countIfStolen_lkc]; rfl
  stc := by
    rw [countIfStolen_stc]
    simp [Fate.control, Fate.sends, replaceTag, mapQueue, mapEntry]
  attempt _ := by rw [countIfStolen_lkc]; rfl
  inFlight := by unfold queueInFlight; rw [countIfStolen_lkc]; rfl

theorem appended (s : State) (tag : Nat) (a : EndArticulation) :
    EndsAs s ((s.mapEntry tag (·.toEnding a)).queueStop tag a) tag a .appended where
  nrs := by
    rw [queueStop_nrs]
    refine Eq.trans ?_ (s.mapEntry_filterMap tag fun x => { x.toEnding a with queued := .stop })
    simp only [mapEntry, setNrs_nrs, List.map_map]
    refine congrArg (fun r => ({ s.nrs with roster := r } : NoteRoster)) (List.map_congr_left fun x _ => ?_)
    by_cases hx : x.tag = tag <;> simp [hx, RosterEntry.toEnding]
  queue := by rw [queueStop, countIfStolen_lkc]; rfl
  stc := by
    rw [queueStop, countIfStolen_stc]
    simp [Fate.control, Fate.sends, enqueue, mapQueue, mapEntry]
  attempt _ := by rw [queueStop, countIfStolen_lkc]; rfl
  inFlight := by unfold queueInFlight queueStop; rw [countIfStolen_lkc]; rfl

end EndsAs

/-- Ending an entry does what the entry's fate says. -/
theorem endEntry_endsAs_of_entry {s : State} {e : RosterEntry} (hfind : s.entry? e.tag = some e) (a : EndArticulation) :
    EndsAs s (s.endEntry e.tag a) e.tag a (s.fate e) := by
  rcases s.endEntry_cases e.tag a with ⟨hnone, -⟩ | ⟨e', he', hcases⟩
  · rw [hfind] at hnone
    cases hnone
  obtain rfl := Option.some.inj (hfind.symm.trans he')
  rcases hcases with ⟨hst, h⟩ | ⟨hst, hflight, h⟩ | ⟨hst, hflight, h⟩ | ⟨hst, hq, hflight, h⟩ | ⟨hst, hq, h⟩ <;> rw [h]
  · rw [show s.fate e = .stands by simp [fate, RosterEntry.fate, hst]]
    exact .stands s e.tag a
  · have hfate : s.fate e = .owed := by
      rcases hst with hst | ⟨hst, hq⟩
      · simp [fate, RosterEntry.fate, hst, hflight]
      · simp [fate, RosterEntry.fate, hst, hq, hflight]
    rw [hfate]
    exact (EndsAs.owed s e.tag a).reported e.slot
  · rw [show s.fate e = .withdrawn by simp [fate, RosterEntry.fate, hst, hflight]]
    exact (EndsAs.withdrawn s e.tag a).reported e.slot
  · rw [show s.fate e = .replaced by simp [fate, RosterEntry.fate, hst, hq, hflight]]
    exact (EndsAs.replaced s e.tag a).reported e.slot
  · rw [show s.fate e = .appended by simp [fate, RosterEntry.fate, hst, hq]]
    exact (EndsAs.appended s e.tag a).reported e.slot

theorem endEntry_endsAs {s : State} (hs : s.nrs.Lawful) {e : RosterEntry} (he : e ∈ s.nrs.roster) (a : EndArticulation) :
    EndsAs s (s.endEntry e.tag a) e.tag a (s.fate e) :=
  endEntry_endsAs_of_entry (hs.find he) a

theorem fate_withdrawn_iff {s : State} {e : RosterEntry} : s.fate e = .withdrawn ↔
    e.state = .starting ∧ s.tagInFlight e.tag = false := by
  unfold fate RosterEntry.fate
  split <;> (try split_ifs) <;> simp_all

theorem fate_replaced_iff {s : State} {e : RosterEntry} : s.fate e = .replaced ↔
    e.state = .sounding ∧ e.queued = .refreshStart ∧ s.tagInFlight e.tag = false := by
  unfold fate RosterEntry.fate
  split <;> (try split_ifs) <;> simp_all

theorem fate_appended_iff {s : State} {e : RosterEntry} : s.fate e = .appended ↔
    e.state = .sounding ∧ e.queued ≠ .refreshStart := by
  unfold fate RosterEntry.fate
  split <;> (try split_ifs) <;> simp_all

theorem fate_owed_iff {s : State} {e : RosterEntry} : s.fate e = .owed ↔ s.tagInFlight e.tag = true ∧
    (e.state = .starting ∨ (e.state = .sounding ∧ e.queued = .refreshStart)) := by
  unfold fate RosterEntry.fate
  split <;> (try split_ifs) <;> simp_all

theorem fate_stands_iff {s : State} {e : RosterEntry} : s.fate e = .stands ↔ e.state = .ending := by
  unfold fate RosterEntry.fate
  split <;> (try split_ifs) <;> simp_all

/-- Only a frame that is not in flight leaves the queue or gives up its place. -/
theorem fate_not_inFlight {s : State} {e : RosterEntry} (h : s.fate e = .withdrawn ∨ s.fate e = .replaced) :
    s.tagInFlight e.tag = false := by
  rcases h with h | h
  · exact (fate_withdrawn_iff.1 h).2
  · exact (fate_replaced_iff.1 h).2.2

/-- Ending an entry leaves which frame of another entry is in flight. -/
theorem EndsAs.tagInFlight_ne {s t : State} {e : RosterEntry} {a : EndArticulation} (h : EndsAs s t e.tag a (s.fate e))
    {tag : Nat} (hne : tag ≠ e.tag) : t.tagInFlight tag = s.tagInFlight tag := by
  cases hflight : s.queueInFlight with
  | false => simp [tagInFlight, h.inFlight, hflight]
  | true =>
    have hfree : s.fate e = .withdrawn ∨ s.fate e = .replaced → ∀ q, s.lkc.noteQueue.head? = some q → q.frame.tag? ≠ some e.tag := by
      intro hfate q hq htag
      have hno := fate_not_inFlight hfate
      rw [Bool.eq_false_iff] at hno
      exact hno (tagInFlight_iff.2 ⟨hflight, q, hq, htag⟩)
    unfold tagInFlight
    rw [h.inFlight, h.queue, hflight]
    cases hqueue : s.lkc.noteQueue with
    | nil => cases s.fate e <;> simp [Fate.queue, NoteFrame.tag?, hne.symm]
    | cons q rest =>
      have hq : s.lkc.noteQueue.head? = some q := by rw [hqueue]; rfl
      cases hfate : s.fate e with
      | stands => rfl
      | owed => rfl
      | appended => rfl
      | withdrawn => simp [Fate.queue, hfree (.inl hfate) q hq]
      | replaced => simp [Fate.queue, hfree (.inr hfate) q hq]

end State

end Sys2Proof.Machine
end

section
/-! PROOFS. Victims, staccato deadlines and trims: the ends of R81, R83, R88, R89 and R90. -/

namespace Sys2Proof.Machine

namespace State

/-! ## Victims -/

/-- A victim ends as its fate says; its tag leaves every tag list. -/
theorem endVictim_endsAs {s : State} (hs : s.nrs.Lawful) {e : RosterEntry} (he : e ∈ s.nrs.roster) (a : EndArticulation) :
    EndsAs s (s.endVictim e.tag a) e.tag a (s.fate e) := by
  obtain ⟨hnrs, hqueue, hstc, hattempt, hflight⟩ := endEntry_endsAs hs he a
  exact ⟨hnrs, hqueue, hstc, hattempt, hflight⟩

namespace EndsAs

variable {s t : State} {tag : Nat} {a : EndArticulation}

theorem roster_withdrawn (h : EndsAs s t tag a .withdrawn) :
    t.nrs = { s.nrs with roster := s.nrs.roster.filter (·.tag ≠ tag) } := by
  rw [h.nrs]
  refine (s.freeEntry_filterMap tag).symm.trans ?_
  simp only [freeEntry, setNrs_nrs]
  exact congrArg (fun r => ({ s.nrs with roster := r } : NoteRoster))
    (List.filter_congr fun x _ => by by_cases hx : x.tag = tag <;> simp [hx])

theorem roster_owed (h : EndsAs s t tag a .owed) : t.nrs = { s.nrs with roster := s.nrs.roster.map fun x =>
    if x.tag = tag then { x with state := .ending, endArticulation := some a, deadline := none } else x } :=
  h.nrs.trans (s.mapEntry_filterMap tag (·.toEnding a)).symm

/-- A NOTE END that is queued, in the place of a REFRESH-START or at the end of the queue. -/
theorem roster_sent {f : Fate} (hf : f.sends = true) (h : EndsAs s t tag a f) :
    t.nrs = { s.nrs with roster := s.nrs.roster.map fun x => if x.tag = tag then
      { x with state := .ending, queued := .stop, endArticulation := some a, deadline := none } else x } := by
  refine h.nrs.trans (Eq.trans ?_ (s.mapEntry_filterMap tag fun x => { x.toEnding a with queued := .stop }).symm)
  cases f with
  | replaced => rfl
  | appended => rfl
  | stands => cases hf
  | withdrawn => cases hf
  | owed => cases hf

/-- Every entry but one that is freed keeps its place and its tag. -/
theorem tags_kept {f : Fate} (h : EndsAs s t tag a f) (hf : f ≠ .withdrawn) :
    t.nrs.roster.map (·.tag) = s.nrs.roster.map (·.tag) := by
  have hentry : ∀ x : RosterEntry, ((if x.tag = tag then f.entry a x else some x).map (·.tag)) = some x.tag := by
    intro x
    split
    · cases f with
      | withdrawn => exact absurd rfl hf
      | stands | owed | replaced | appended => rfl
    · rfl
  rw [h.nrs, List.map_filterMap]
  simp only [hentry, List.filterMap_eq_map']

/-- Every other entry stands. -/
theorem other_stands {f : Fate} (h : EndsAs s t tag a f) {x : RosterEntry} (hx : x ∈ s.nrs.roster) (hne : x.tag ≠ tag) :
    x ∈ t.nrs.roster := by
  rw [h.nrs]
  exact List.mem_filterMap.2 ⟨x, hx, by simp [hne]⟩

/-- The entry itself is in the roster as its fate leaves it. -/
theorem ended_mem {e x : RosterEntry} {f : Fate} (h : EndsAs s t e.tag a f) (he : e ∈ s.nrs.roster)
    (hx : f.entry a e = some x) : x ∈ t.nrs.roster := by
  rw [h.nrs]
  exact List.mem_filterMap.2 ⟨e, he, by simp [hx]⟩

end EndsAs

theorem fate_owed_of_active {s : State} {e : RosterEntry} (hactive : e.state ≠ .ending) (hflight : s.tagInFlight e.tag = true)
    (h : e.state = .starting ∨ e.queued = .refreshStart) : s.fate e = .owed := by
  refine fate_owed_iff.2 ⟨hflight, ?_⟩
  cases hstate : e.state with
  | starting => exact .inl rfl
  | sounding => exact .inr ⟨rfl, h.resolve_left (by simp [hstate])⟩
  | ending => exact absurd hstate hactive

/-- the end of a victim, by its fate. -/
theorem endVictim_effect (s : State) (v : RosterEntry) (art : EndArticulation) (hs : s.nrs.Lawful)
    (hv : v ∈ s.nrs.roster) (hactive : v.state ≠ .ending) :
    let t := s.endVictim v.tag art
    let owed := s.tagInFlight v.tag = true ∧ (v.state = .starting ∨ v.queued = .refreshStart)
    State.NotesOnly s t ∧
    t.plu = { s.plu with held := s.plu.held.map fun r => { r with tags := r.tags.filter (· ≠ v.tag) } } ∧
    (v.state = .starting → s.tagInFlight v.tag = false →
      t.nrs = { s.nrs with roster := s.nrs.roster.filter (·.tag ≠ v.tag) } ∧ t.stc = s.stc ∧
        t.lkc.noteQueue = s.lkc.noteQueue.filter (·.frame.tag? ≠ some v.tag)) ∧
    (owed →
      t.nrs = { s.nrs with roster := s.nrs.roster.map fun x => if x.tag = v.tag then
        { x with state := .ending, endArticulation := some art, deadline := none } else x } ∧ t.stc = s.stc ∧
        t.lkc.noteQueue = s.lkc.noteQueue ∧ t.lkc.tx = s.lkc.tx.map fun a => { a with withdraw := true }) ∧
    (v.state = .sounding → ¬owed →
      t.nrs = { s.nrs with roster := s.nrs.roster.map fun x => if x.tag = v.tag then
        { x with state := .ending, queued := .stop, endArticulation := some art, deadline := none } else x } ∧
        t.stc = { s.stc with counters := { s.stc.counters with
          stolenNotes := if art = .stolen then min (s.stc.counters.stolenNotes + 1) 65535
            else s.stc.counters.stolenNotes } } ∧
        t.lkc.noteQueue = (if v.queued = .refreshStart then s.lkc.noteQueue.map fun i =>
            if i.frame.tag? = some v.tag then ⟨.stop v.tag art, 0⟩ else i
          else s.lkc.noteQueue ++ [⟨.stop v.tag art, 0⟩])) := by
  have hends := endVictim_endsAs hs hv art
  refine ⟨.endVictim s v.tag art, ?_, fun hst hflight => ?_, fun ⟨hflight, hst⟩ => ?_, fun hst howed => ?_⟩
  · rw [endVictim_plu]
    simp only [ne_eq, decide_not]
    rfl
  · rw [fate_withdrawn_iff.2 ⟨hst, hflight⟩] at hends
    refine ⟨hends.roster_withdrawn, hends.stc, hends.queue.trans ?_⟩
    exact List.filter_congr fun i _ => by by_cases hi : i.frame.tag? = some v.tag <;> simp [hi]
  · have hfate := fate_owed_of_active hactive hflight hst
    rw [hfate] at hends
    exact ⟨hends.roster_owed, hends.stc, hends.queue, hends.attempt (tagInFlight_iff.1 hflight).1⟩
  · by_cases hq : v.queued = .refreshStart
    · have hflight : s.tagInFlight v.tag = false := by
        rw [Bool.eq_false_iff]
        exact fun hflight => howed ⟨hflight, .inr hq⟩
      rw [fate_replaced_iff.2 ⟨hst, hq, hflight⟩] at hends
      refine ⟨hends.roster_sent rfl, hends.stc.trans ?_, hends.queue.trans ?_⟩
      · by_cases ha : art = .stolen <;> simp [Fate.control, Fate.sends, ha, satAdd]
      · simp [Fate.queue, hq]
    · rw [fate_appended_iff.2 ⟨hst, hq⟩] at hends
      refine ⟨hends.roster_sent rfl, hends.stc.trans ?_, hends.queue.trans ?_⟩
      · by_cases ha : art = .stolen <;> simp [Fate.control, Fate.sends, ha, satAdd]
      · simp [Fate.queue, hq]

end State

/-! ## The staccato deadline -/

/-- Settles O33. -/
theorem staccatoDeadlineEndsTheNote : Obligations.StaccatoDeadlineEndsTheNote := by
  intro s tag e hup hplaying hlawful hfind hactive hdeadline
  have he : e ∈ s.nrs.roster := List.mem_of_find?_eq_some hfind
  obtain rfl : e.tag = tag := by simpa using List.find?_some hfind
  have hends := State.endVictim_endsAs hlawful he .normal
  have hkept : e.state = .sounding ∨ s.tagInFlight e.tag = true → s.fate e ≠ .withdrawn := by
    intro h hw
    obtain ⟨hst, hflight⟩ := State.fate_withdrawn_iff.1 hw
    rcases h with h | h
    · rw [hst] at h
      cases h
    · rw [hflight] at h
      cases h
  obtain ⟨hnotes, hplu, hwithdrawn, howed, hsent⟩ := State.endVictim_effect s e .normal hlawful he hactive
  refine ⟨s.endVictim e.tag .normal, ?_, rfl, hnotes, ?_, hplu, fun hst hflight => ?_, fun h => ⟨?_, ?_, ?_⟩,
    fun hst hq => ?_, fun hst hq hflight => ?_, fun hflight h => ?_⟩
  · refine congrArg _ ((State.whenUp_of_up hup _).trans ?_)
    have hentry : s.entry? e.tag = some e := hfind
    simp [State.staccatoExpiry, hplaying, hentry, RosterEntry.active, hactive, hdeadline]
  · rw [hends.stc]
    simp [Fate.control]
  · obtain ⟨hnrs, -, hqueue⟩ := hwithdrawn hst hflight
    exact ⟨by rw [hnrs], hqueue⟩
  · exact hends.tags_kept (hkept h)
  · obtain ⟨x, hx, hxe⟩ : ∃ x, (s.fate e).entry .normal e = some x ∧ x.tag = e.tag ∧ x.state = .ending ∧
        x.endArticulation = some .normal ∧ x.deadline = none := by
      cases hf : s.fate e with
      | stands => exact absurd (State.fate_stands_iff.1 hf) hactive
      | withdrawn => exact absurd hf (hkept h)
      | owed => exact ⟨_, rfl, rfl, rfl, rfl, rfl⟩
      | replaced => exact ⟨_, rfl, rfl, rfl, rfl, rfl⟩
      | appended => exact ⟨_, rfl, rfl, rfl, rfl, rfl⟩
    exact ⟨x, hends.ended_mem he hx, hxe⟩
  · exact fun x hx hne => hends.other_stands hx hne
  · rw [State.fate_appended_iff.2 ⟨hst, by simp [hq]⟩] at hends
    exact ⟨hends.queue, _, hends.ended_mem he rfl, rfl, rfl⟩
  · rw [State.fate_replaced_iff.2 ⟨hst, hq, hflight⟩] at hends
    exact ⟨hends.queue, _, hends.ended_mem he rfl, rfl, rfl⟩
  · have hfate := State.fate_owed_of_active hactive hflight h
    rw [hfate] at hends
    exact ⟨hends.queue, hends.attempt (State.tagInFlight_iff.1 hflight).1, _, hends.ended_mem he rfl, rfl, rfl⟩

/-! ## Trims -/

/-- The STARTING and SOUNDING entries of a slot, oldest first. -/
def NoteRoster.standing (n : NoteRoster) (k : Slot) : List RosterEntry :=
  n.roster.filter fun e => e.slot = k ∧ e.state ≠ .ending

namespace State

theorem standing_length (s : State) (k : Slot) : (s.nrs.standing k).length = s.nrs.count k := by
  unfold NoteRoster.standing NoteRoster.count
  refine congrArg List.length (List.filter_congr fun e _ => ?_)
  by_cases hk : e.slot = k <;> by_cases he : e.state = .ending <;> simp [RosterEntry.active, hk, he]

theorem oldestIn_standing (s : State) (k : Slot) : s.oldestIn k = (s.nrs.standing k).head? := by
  unfold oldestIn NoteRoster.standing
  rw [List.head?_filter]
  refine congrArg (List.find? · _) (funext fun e => ?_)
  by_cases hk : e.slot = k <;> by_cases he : e.state = .ending <;> simp [RosterEntry.active, hk, he]

/-- The roster around an entry once the entry has met its fate. -/
theorem EndsAs.roster_split {s t : State} {e : RosterEntry} {a : EndArticulation} {f : Fate} (h : EndsAs s t e.tag a f)
    (hs : s.nrs.Lawful) {l₁ l₂ : List RosterEntry} (hroster : s.nrs.roster = l₁ ++ e :: l₂) :
    t.nrs = { s.nrs with roster := l₁ ++ ((f.entry a e).toList ++ l₂) } := by
  obtain ⟨-, -, -, hpairwise⟩ := hs
  rw [hroster, List.pairwise_append, List.pairwise_cons] at hpairwise
  obtain ⟨-, ⟨hlater, -⟩, hearlier⟩ := hpairwise
  have hrest : ∀ l : List RosterEntry, (∀ x ∈ l, x.tag ≠ e.tag) →
      (l.filterMap fun x => if x.tag = e.tag then f.entry a x else some x) = l :=
    fun l hl => (List.filterMap_congr fun x hx => if_neg (hl x hx)).trans List.filterMap_some
  rw [h.nrs]
  simp only [hroster, List.filterMap_append, List.filterMap_cons, if_true]
  rw [hrest l₁ fun x hx => (hearlier x hx e List.mem_cons_self).1, hrest l₂ fun x hx => (hlater x hx).1.symm]
  cases f.entry a e <;> rfl

/-- The oldest entry of a slot, ended as a victim, no longer stands in it; every later one does. -/
theorem endVictim_standing {s : State} (hs : s.nrs.Lawful) {k : Slot} {v : RosterEntry} {later : List RosterEntry}
    (h : s.nrs.standing k = v :: later) (a : EndArticulation) : (s.endVictim v.tag a).nrs.standing k = later := by
  obtain ⟨l₁, l₂, hroster, hbefore, hv, hafter⟩ := List.filter_eq_cons_iff.1 h
  have hmem : v ∈ s.nrs.roster := by rw [hroster]; simp
  have hvictim : ∀ x, (s.fate v).entry a v = some x → x.state = .ending := by
    intro x hx
    cases hf : s.fate v with
    | stands =>
      rw [fate_stands_iff] at hf
      simp [hf] at hv
    | withdrawn => rw [hf] at hx; cases hx
    | owed => rw [hf] at hx; cases hx; rfl
    | replaced => rw [hf] at hx; cases hx; rfl
    | appended => rw [hf] at hx; cases hx; rfl
  unfold NoteRoster.standing
  rw [(endVictim_endsAs hs hmem a).roster_split hs hroster]
  simp only
  rw [List.filter_append, List.filter_append, List.filter_eq_nil_iff.2 hbefore, List.nil_append, ← hafter]
  cases hx : (s.fate v).entry a v with
  | none => rfl
  | some x => simp [hvictim x hx]

/-- A trim ends the oldest entries of the slot, as many as are asked for. -/
theorem trimOldest_eq (k : Slot) (a : EndArticulation) (n : Nat) {s : State} (hs : s.nrs.Lawful) :
    State.trimOldest k a n s = ((s.nrs.standing k).take n).foldl (fun t v => t.endVictim v.tag a) s := by
  induction n generalizing s with
  | zero => rfl
  | succ n ih =>
    unfold trimOldest
    rw [oldestIn_standing]
    cases hstanding : s.nrs.standing k with
    | nil => rfl
    | cons v later =>
      have h := ih ((NoteRoster.Shrinks.endVictim s v.tag a).lawful hs)
      rw [endVictim_standing hs hstanding a] at h
      exact h

end State

/-! ## What no operation on notes counts -/

theorem FineMove.linkCounters_eq {s t : State} (h : FineMove s t) :
    t.stc.counters.linkCounters = s.stc.counters.linkCounters := by
  cases h with
  | count c hc _ => exact hc
  | report k => rw [State.reportCount_stc]
  | restart k => rw [(State.LevelsOnly.restartLevel s k).stc_eq]
  | _ => rfl

theorem NoteMoves.linkCounters_eq {s t : State} (h : NoteMoves s t) :
    t.stc.counters.linkCounters = s.stc.counters.linkCounters :=
  (FineMoves.of_noteMoves h).keeps (P := fun u => u.stc.counters.linkCounters = s.stc.counters.linkCounters)
    (fun _ _ hm hu => hm.linkCounters_eq.trans hu) rfl

namespace State

theorem setGroup_linkCounters (s : State) (d : Direction) (level : Nat) :
    (s.setGroup d level).stc.counters.linkCounters = s.stc.counters.linkCounters := by
  unfold setGroup
  dsimp only
  split
  · refine (NoteMoves.groupChange _ _ _ _).linkCounters_eq.trans ?_
    split
    · rw [(LevelsOnly.recomputeLevels _).stc_eq]
      rfl
    · rfl
  · rfl

theorem followReport_linkCounters (s : State) :
    s.followReport.stc.counters.linkCounters = s.stc.counters.linkCounters := by
  rcases followReport_cases s with ⟨-, h⟩ | ⟨-, ⟨a, -, h⟩ | ⟨-, -, h⟩ | ⟨-, -, h⟩⟩
  · rw [h]
  · rw [h]; rfl
  · rw [h]; rfl
  · rw [h]
    exact setGroup_linkCounters _ _ _

theorem peerReport_linkCounters (s : State) :
    s.peerReport.stc.counters.linkCounters = s.stc.counters.linkCounters := by
  have hreport : s.peerReport = s.followReport.recomputeLimits.trimAll := rfl
  rw [hreport, (NoteMoves.trimAll _).linkCounters_eq]
  exact followReport_linkCounters s

/-- A frame's evidence leaves the slot table, the assembly buffer and the caps, and counts nothing of the link. -/
theorem heard_offers (s : State) (f : RxFrame) : (s.heard f).ofu.table = s.ofu.table ∧
    (s.heard f).ofu.assembly = s.ofu.assembly ∧ (s.heard f).ofu.cap = s.ofu.cap ∧
    (s.heard f).stc.counters.linkCounters = s.stc.counters.linkCounters := by
  have hpeer : (s.peerEvidence f).ofu.table = s.ofu.table ∧ (s.peerEvidence f).ofu.assembly = s.ofu.assembly ∧
      (s.peerEvidence f).ofu.cap = s.ofu.cap ∧
      (s.peerEvidence f).stc.counters.linkCounters = s.stc.counters.linkCounters := by
    rw [peerEvidence_eq]
    split
    · split
      · exact ⟨rfl, rfl, rfl, rfl⟩
      · generalize hu : s.setPeer f.sender ⟨true, some (ms 350), s.knownAfter f⟩ = u
        obtain ⟨-, -, -, -, hofu, -⟩ := u.peerReport_spec
        have hu' : u.ofu = s.ofu ∧ u.stc = s.stc := by rw [← hu]; exact ⟨rfl, rfl⟩
        rw [hofu, peerReport_linkCounters, hu'.1, hu'.2]
        exact ⟨rfl, rfl, rfl, rfl⟩
    · exact ⟨rfl, rfl, rfl, rfl⟩
  unfold heard
  split
  · exact hpeer
  · exact hpeer

end State

end Sys2Proof.Machine
end

section
/-! PROOFS. The Offer Unit: the parts of an offer set and its adoption, and the flags of an ENGINE ALERT. -/

namespace Sys2Proof.Machine

/-! ## Offer parts -/

theorem State.handOn_of_offer {f : RxFrame} (h : f.kind = kindOffer) (s : State) : s.handOn f = (s.heard f).takeOffer f := by
  rw [State.handOn_eq]
  simp [h, kindBellows, kindRegistration, kindOffer]

theorem State.takeOffer_of_other {s : State} {f : RxFrame} (h : f.sender ≠ 15) : s.takeOffer f = s := if_neg h

/-- The parts of the collection that an offer part joins (R124). -/
def Assembly.before (a : Option Assembly) (number n : Nat) : List (Option (List Offer)) :=
  match a with
  | some a => if a.setNumber = number ∧ a.parts.length = n then a.parts else List.replicate n none
  | none => List.replicate n none

theorem Assembly.store_of_fits {i n : Nat} (h : 1 ≤ i ∧ i ≤ n ∧ n ≤ 4) (a : Option Assembly) (number : Nat)
    (offers : List Offer) : Assembly.store a number i n offers =
      some ⟨number, (Assembly.before a number n).set (i - 1) (some offers)⟩ := by
  unfold Assembly.store
  rw [if_pos (by omega)]
  rfl

theorem Assembly.store_of_unfit {i n : Nat} (h : ¬(1 ≤ i ∧ i ≤ n ∧ n ≤ 4)) (a : Option Assembly) (number : Nat)
    (offers : List Offer) : Assembly.store a number i n offers = a := by
  unfold Assembly.store
  exact if_neg (by omega)

theorem Assembly.complete_iff (a : Assembly) : a.complete = true ↔ none ∉ a.parts := by
  unfold Assembly.complete
  rw [List.all_eq_true]
  constructor
  · intro h hnone
    cases h none hnone
  · intro h p hp
    cases p with
    | none => exact absurd hp h
    | some _ => rfl

/-- An offer part that completes no set joins the buffer, or leaves it. -/
theorem State.takeOffer_of_incomplete {s : State} {f : RxFrame} (h15 : f.sender = 15) {x : Option Assembly}
    (hx : Assembly.store s.ofu.assembly (f.byte 0).toNat ((f.byte 1).toNat / 16) ((f.byte 1).toNat % 16)
      (offersOf (f.payload.drop 2)) = x) (hnone : ∀ a, x = some a → none ∈ a.parts) :
    s.takeOffer f = s.setOfu { s.ofu with assembly := x } := by
  unfold State.takeOffer
  rw [if_pos h15]
  dsimp only [State.setOfu_ofu]
  rw [hx]
  cases x with
  | none => rfl
  | some a =>
    have hc : a.complete = false := by
      rw [Bool.eq_false_iff]
      exact fun hc => (Assembly.complete_iff a).1 hc (hnone a rfl)
    simp [hc]

/-- An offer part that completes a set has the set adopted. -/
theorem State.takeOffer_of_complete {s : State} {f : RxFrame} (h15 : f.sender = 15) {a : Assembly}
    (ha : Assembly.store s.ofu.assembly (f.byte 0).toNat ((f.byte 1).toNat / 16) ((f.byte 1).toNat % 16)
      (offersOf (f.payload.drop 2)) = some a) (hnone : none ∉ a.parts) :
    s.takeOffer f = (s.setOfu { s.ofu with assembly := some a }).adoptOffers a.offers := by
  unfold State.takeOffer
  rw [if_pos h15]
  dsimp only [State.setOfu_ofu]
  rw [ha]
  dsimp only
  rw [if_pos ((Assembly.complete_iff a).2 hnone)]

/-- An adoption (R129): the table is the set's, no cap stands, the limits follow and the slots are trimmed. -/
theorem State.adoptOffers_spec (s : State) (offers : List Offer) :
    let t := s.adoptOffers offers
    t.ofu = { s.ofu with
      table := tableOf offers, cap := .all none, assembly := none, share := t.ofu.share, limit := t.ofu.limit } ∧
    t.LimitsCurrent ∧ (s.nrs.Lawful → ∀ k : Slot, t.nrs.count k ≤ t.ofu.limit.get k) ∧
    t = ({ s with ofu := t.ofu } : State).trimAll := by
  generalize hu : s.setOfu { s.ofu with table := tableOf offers, cap := .all none, assembly := none } = u
  have hadopt : s.adoptOffers offers = u.recomputeAndTrim := by rw [← hu]; rfl
  have htrim : u.recomputeAndTrim = u.recomputeLimits.trimAll := rfl
  have hofu : u.recomputeAndTrim.ofu = u.recomputeLimits.ofu := (State.NotesOnly.trimAll u.recomputeLimits).ofu_eq
  dsimp only
  rw [hadopt]
  refine ⟨?_, (State.recomputeAndTrim_spec u).1, fun hs => ?_, ?_⟩
  · rw [hofu, State.recomputeLimits_ofu, ← hu]
    rfl
  · have hlawful : u.recomputeLimits.nrs.Lawful := by rw [← hu]; exact hs
    rw [htrim]
    have h := (State.trimAll_fits hlawful).2
    rw [← (State.NotesOnly.trimAll u.recomputeLimits).ofu_eq] at h
    exact h
  · rw [hofu, htrim]
    refine congrArg State.trimAll ?_
    rw [State.recomputeLimits_ofu, ← hu]
    rfl


theorem State.heard_popped_ofu {f : RxFrame} (h15 : f.sender = 15) (s : State) (rest : List RxFrame) :
    ((s.popped rest).heard f).ofu = { s.ofu with engine := .live, livenessTimer := some (ms 2000) } := by
  rw [State.heard_of_engine h15]
  rfl

/-- Settles O48. -/
theorem offerPartsAreAssembledAndAdopted : Obligations.OfferPartsAreAssembledAndAdopted := by
  refine ⟨fun s f rest hup hw hbuffer hkind => ?_, fun s => rfl, fun s k hs => ?_⟩
  · intro number i n fits before parts
    have hdelivers : delivers .engineOfferPart f = true := by simp [delivers, hkind]
    obtain ⟨htable, hassembly, hcap, -⟩ := State.heard_offers (s.popped rest) f
    rw [exec_of_delivers hup hw hbuffer hdelivers, State.handOn_of_offer hkind]
    refine ⟨_, rfl, fun h15 => ?_, fun h15 hfits hnone => ?_, fun h15 hfits hall => ?_, fun h15 hfits hold => ?_⟩
    · rw [State.takeOffer_of_other h15]
      exact ⟨hassembly, htable, hcap⟩
    · rw [State.takeOffer_of_incomplete h15 (x := some ⟨number, parts⟩)
        (by rw [hassembly]; exact Assembly.store_of_fits hfits _ _ _)
        (fun a ha => by cases ha; exact hnone)]
      refine ⟨rfl, htable, hcap, ?_⟩
      rw [State.heard_of_engine h15]
      rfl
    · rw [State.takeOffer_of_complete h15 (a := ⟨number, parts⟩)
        (by rw [hassembly]; exact Assembly.store_of_fits hfits _ _ _) hall]
      generalize hu : ((s.popped rest).heard f).setOfu { ((s.popped rest).heard f).ofu with
        assembly := some ⟨number, parts⟩ } = u
      have hheard : u = ((s.popped rest).engineEvidence).setOfu { ((s.popped rest).engineEvidence).ofu with
          assembly := some ⟨number, parts⟩ } := by
        rw [← hu, State.heard_of_engine h15]
      have hadopt := u.adoptOffers_spec (Assembly.offers ⟨number, parts⟩)
      dsimp only at hadopt
      generalize u.adoptOffers (Assembly.offers ⟨number, parts⟩) = t at hadopt ⊢
      obtain ⟨hofu, hcurrent, hfits', htrim⟩ := hadopt
      refine ⟨by rw [hofu]; rfl, by rw [hofu], by rw [hofu], hcurrent, fun hs => hfits' ?_, ?_⟩
      · rw [hheard]
        exact hs
      · refine htrim.trans (congrArg State.trimAll ?_)
        subst hheard
        rw [hofu]
        rfl
    · rw [State.takeOffer_of_incomplete h15 (x := s.ofu.assembly)
        (by rw [hassembly]; exact Assembly.store_of_unfit hfits _ _ _) hold]
      refine ⟨rfl, htable, hcap, ?_⟩
      rw [State.heard_of_engine h15]
      rfl
  · intro standing victims
    have ha : (if (s.ofu.table.get k).isNone = true then EndArticulation.lost else .stolen) =
        if s.ofu.table.get k = none then .lost else .stolen := by
      simp only [Option.isNone_iff_eq_none]
    unfold State.trimSlot
    rw [ha, State.trimOldest_eq k _ _ hs, ← State.standing_length]
    rfl

/-! ## Alerts -/

theorem State.handOn_of_alert {f : RxFrame} (h : f.kind = kindAlert) (s : State) : s.handOn f = (s.heard f).takeAlert f := by
  rw [State.handOn_eq]
  simp [h, kindBellows, kindRegistration, kindOffer, kindAlert]

/-- What an alert does after its EXHAUSTED flag: the restart report, and then the panic (R135). -/
def State.afterExhausted (s : State) (f : RxFrame) : State :=
  let u := if f.alertFlag 1 then s.takeRestarted else s
  if f.alertFlag 2 then u.panic else u

theorem State.takeAlert_eq {s : State} {f : RxFrame} (h15 : f.sender = 15) : s.takeAlert f =
    (if f.alertFlag 0 then s.takeExhausted (f.byte 1) else s).afterExhausted f := if_pos h15

theorem State.takeAlert_of_other {s : State} {f : RxFrame} (h15 : f.sender ≠ 15) : s.takeAlert f = s := if_neg h15

theorem NoteMoves.takeRestarted (s : State) : NoteMoves s s.takeRestarted := (one (.refresh s)).trans (one (.restart _))

theorem State.afterExhausted_moves (s : State) (f : RxFrame) : NoteMoves s (s.afterExhausted f) := by
  have h : NoteMoves s (if f.alertFlag 1 then s.takeRestarted else s) := by
    split
    · exact .takeRestarted s
    · exact .refl s
  unfold State.afterExhausted
  dsimp only
  generalize (if f.alertFlag 1 then s.takeRestarted else s) = u at h ⊢
  split
  · exact h.trans (.panic u)
  · exact h

/-- The EXHAUSTED flag (R132): the caps, one count, and the limits that follow. -/
theorem State.takeExhausted_spec (s : State) (mask : SlotMask) : (s.takeExhausted mask).LimitsCurrent ∧
    (s.takeExhausted mask).ofu = { s.ofu with
      cap := .ofFn fun k => if SlotMask.has mask k then some (s.nrs.count k) else s.ofu.cap.get k
      share := (s.takeExhausted mask).ofu.share
      limit := (s.takeExhausted mask).ofu.limit } ∧
    (s.takeExhausted mask).stc.counters.engineExhaustions = min (s.stc.counters.engineExhaustions + 1) 65535 := by
  generalize hu : (s.setOfu { s.ofu with
    cap := .ofFn fun k => if SlotMask.has mask k then some (s.nrs.count k) else s.ofu.cap.get k }).countExhaustion = u
  have htake : s.takeExhausted mask = u.recomputeAndTrim := by rw [← hu]; rfl
  have htrim : u.recomputeAndTrim = u.recomputeLimits.trimAll := rfl
  have hcount : u.recomputeAndTrim.stc.counters.linkCounters = u.stc.counters.linkCounters := by
    rw [htrim, (NoteMoves.trimAll u.recomputeLimits).linkCounters_eq]
    rfl
  obtain ⟨hcurrent, hnotes⟩ := State.recomputeAndTrim_spec u
  have hofu := hnotes.ofu_eq
  rw [htake]
  generalize u.recomputeAndTrim = t at hcount hcurrent hofu ⊢
  refine ⟨hcurrent, ?_, ?_⟩
  · rw [hofu, ← hu]
    rfl
  · have h : t.stc.counters.engineExhaustions = u.stc.counters.engineExhaustions :=
      congrArg (fun c : Nat × Nat × Nat => c.2.2) hcount
    rw [h, ← hu]
    rfl

/-- Settles O49. -/
theorem exhaustionCapsSlotsAndFlagsActInOrder : Obligations.ExhaustionCapsSlotsAndFlagsActInOrder := by
  refine ⟨fun s f rest hup hw hbuffer hkind hflag => ?_, fun s mask rest c hup hw hc => ?_⟩
  · have hdelivers : delivers .engineAlertExhausted f = true := by simp [delivers, hkind, hflag]
    obtain ⟨htable, hassembly, hcap, hcount⟩ := State.heard_offers (s.popped rest) f
    have hcount : ((s.popped rest).heard f).stc.counters.engineExhaustions = s.stc.counters.engineExhaustions :=
      congrArg (fun c : Nat × Nat × Nat => c.2.2) hcount
    rw [exec_of_delivers hup hw hbuffer hdelivers, State.handOn_of_alert hkind]
    by_cases h15 : f.sender = 15
    · have hnrs : ((s.popped rest).heard f).nrs = s.nrs := by rw [State.heard_of_engine h15]; rfl
      rw [State.takeAlert_eq h15, if_pos hflag]
      generalize (s.popped rest).heard f = u at htable hassembly hcap hcount hnrs ⊢
      obtain ⟨hcurrent, hofu, hexhausted⟩ := u.takeExhausted_spec (f.byte 1)
      have hmoves := State.afterExhausted_moves (u.takeExhausted (f.byte 1)) f
      generalize u.takeExhausted (f.byte 1) = v at hcurrent hofu hexhausted hmoves ⊢
      have hsame := hmoves.notesOnly.ofu_eq
      have hcounted := congrArg (fun c : Nat × Nat × Nat => c.2.2) hmoves.linkCounters_eq
      have hcurrent := State.LimitsCurrent.of_notesOnly hmoves.notesOnly hcurrent
      generalize v.afterExhausted f = t at hsame hcounted hcurrent ⊢
      refine ⟨t, rfl, ?_, ?_, fun _ => ⟨hcurrent, ?_, fun k => ?_⟩, fun h => absurd h15 h⟩
      · rw [hsame, hofu]
        exact htable
      · rw [hsame, hofu]
        exact hassembly
      · exact hcounted.trans (hexhausted.trans (by rw [hcount]))
      · rw [hsame, hofu, hnrs, hcap]
        exact PerSlot.get_ofFn _ k
    · rw [State.takeAlert_of_other h15]
      exact ⟨_, rfl, htable, hassembly, fun h => absurd h h15, fun _ => ⟨hcap, hcount⟩⟩
  · intro alert heard
    have hdelivers : delivers c (alert 7) = true := by
      simp only [List.mem_cons, List.not_mem_nil, or_false] at hc
      rcases hc with rfl | rfl | rfl <;> simp [delivers, alert, RxFrame.alertFlag, RxFrame.byte]
    have h7 : (alert 7).sender = 15 := rfl
    refine (exec_of_delivers (s := s.popped (alert 7 :: rest)) hup hw rfl hdelivers).trans (congrArg Host.Outcome.next ?_)
    rw [State.handOn_of_alert rfl, State.heard_of_engine h7]
    change heard.takeAlert (alert 7) = _
    rw [State.takeAlert_eq h7, State.takeAlert_eq (f := alert 1) rfl, State.takeAlert_eq (f := alert 2) rfl,
      State.takeAlert_eq (f := alert 4) rfl]
    simp [State.afterExhausted, alert, RxFrame.alertFlag, RxFrame.byte]

end Sys2Proof.Machine
end

section
/-! PROOFS. The engine's restart: the notes refreshed and the levels written anew. -/

namespace Sys2Proof.Machine

/-! ## The refresh (section 5.8) -/

/-- A SOUNDING entry with no frame queued: it is refreshed (R91). -/
def RosterEntry.stale (e : RosterEntry) : Bool := e.state = .sounding ∧ e.queued = .noFrame

/-- The entry once its REFRESH-START is queued. -/
def RosterEntry.refreshed (e : RosterEntry) : RosterEntry :=
  if e.stale then { e with queued := .refreshStart } else e

/-- The REFRESH-START of an entry, with the present velocity (R98). -/
def RosterEntry.refreshItem (level : PerSlot Nat) (e : RosterEntry) : QueueItem :=
  ⟨.refreshStart e.tag e.slot e.pitch (refreshVelocity e.articulation (level.get e.slot)), 0⟩

theorem RosterEntry.refreshed_tag (e : RosterEntry) : e.refreshed.tag = e.tag := by
  unfold RosterEntry.refreshed
  split <;> rfl

namespace State

/-- The refresh of an entry between others of other tags. -/
theorem refreshEntry_eq {s : State} {pre later : List RosterEntry} {e : RosterEntry}
    (h : s.nrs.roster = pre ++ e :: later) (hne : ∀ x ∈ pre ++ later, x.tag ≠ e.tag) :
    s.refreshEntry e = { s with
      nrs := { s.nrs with roster := pre ++ e.refreshed :: later }
      lkc := { s.lkc with
        noteQueue := s.lkc.noteQueue ++ ([e].filter (·.stale)).map (RosterEntry.refreshItem s.lvu.sectionLevel) } } := by
  unfold refreshEntry
  by_cases hstale : e.state = .sounding ∧ e.queued = .noFrame
  · have hmap := mapEntry_split h hne fun e => { e with queued := .refreshStart }
    have hnrs : (s.mapEntry e.tag fun e => { e with queued := .refreshStart }) =
        s.setNrs { s.nrs with roster := pre ++ e.refreshed :: later } := by
      have hroster : (s.mapEntry e.tag fun e => { e with queued := .refreshStart }) =
        s.setNrs { s.nrs with roster := (s.mapEntry e.tag fun e => { e with queued := .refreshStart }).nrs.roster } := rfl
      rw [hroster, hmap]
      simp [RosterEntry.refreshed, RosterEntry.stale, hstale]
    rw [if_pos hstale, hnrs]
    simp [RosterEntry.stale, hstale, RosterEntry.refreshItem, enqueue_eq, setNrs]
  · rw [if_neg hstale]
    simp [RosterEntry.refreshed, RosterEntry.stale, hstale, ← h]

/-- The refresh of the rest of a roster whose first entries have been met. -/
theorem refresh_foldl (later : List RosterEntry) {s : State} {pre : List RosterEntry}
    (h : s.nrs.roster = pre ++ later) (hne : ((pre ++ later).map (·.tag)).Nodup) :
    later.foldl refreshEntry s = { s with
      nrs := { s.nrs with roster := pre ++ later.map (·.refreshed) }
      lkc := { s.lkc with
        noteQueue := s.lkc.noteQueue ++ (later.filter (·.stale)).map (RosterEntry.refreshItem s.lvu.sectionLevel) } } := by
  induction later generalizing s pre with
  | nil => simp [← h]
  | cons e later ih =>
    have hothers : ∀ x ∈ pre ++ later, x.tag ≠ e.tag := by
      intro x hx heq
      rw [List.map_append, List.map_cons, List.nodup_middle, List.nodup_cons, ← List.map_append] at hne
      exact hne.1 (heq ▸ List.mem_map_of_mem hx)
    rw [List.foldl_cons, refreshEntry_eq h hothers]
    rw [ih (pre := pre ++ [e.refreshed]) (by simp) (by simpa [RosterEntry.refreshed_tag] using hne)]
    simp only [List.append_assoc, List.singleton_append, List.map_cons]
    by_cases hstale : e.stale = true <;> simp [hstale]

theorem refresh_eq {s : State} (hs : s.nrs.Lawful) : s.refresh = { s with
    nrs := { s.nrs with roster := s.nrs.roster.map (·.refreshed) }
    lkc := { s.lkc with
      noteQueue := s.lkc.noteQueue ++
        (s.nrs.roster.filter (·.stale)).map (RosterEntry.refreshItem s.lvu.sectionLevel) } } := by
  refine refresh_foldl s.nrs.roster (pre := []) rfl ?_
  obtain ⟨-, -, -, hpairwise⟩ := hs
  rw [List.nil_append, List.nodup_iff_pairwise_ne, List.pairwise_map]
  exact hpairwise.imp And.left

/-! ## The restart report (section 6.5) -/

theorem restartLevels_lvu (s : State) : s.restartLevels.lvu = { s.lvu with
    lastSent := s.restartLevels.lvu.lastSent, justRestarted := s.restartLevels.lvu.justRestarted } := by
  have hlevel : s.restartLevels.lvu.sectionLevel = s.lvu.sectionLevel := by simp [restartLevels, slots]
  have h := congrArg State.lvu s.restartLevels_written
  rw [hlevel] at h
  exact h

theorem setGrf_slotView (s : State) (grf : GroupFollower) (k : Slot) : (s.setGrf grf).slotView k = s.slotView k := rfl

/-- A slot with notes as the restart report leaves it. -/
theorem restartLevels_of_count {s : State} {k : Slot} (h : 0 < s.lvu.slotCount.get k) :
    s.restartLevels.lkc.updates.levels.get k = some ⟨.level k (s.lvu.sectionLevel.get k), 0⟩ ∧
      s.restartLevels.lvu.lastSent.get k = s.lvu.sectionLevel.get k ∧ s.restartLevels.lvu.justRestarted.get k = true := by
  have hview := s.restartLevels_slotView k
  unfold SlotView.restarted at hview
  rw [if_pos (by exact h)] at hview
  exact ⟨congrArg SlotView.entry hview, congrArg SlotView.lastSent hview, congrArg SlotView.justRestarted hview⟩

theorem restartLevels_of_empty {s : State} {k : Slot} (h : s.lvu.slotCount.get k = 0) :
    s.restartLevels.lkc.updates.levels.get k = s.lkc.updates.levels.get k ∧
      s.restartLevels.lvu.lastSent.get k = s.lvu.lastSent.get k ∧
      s.restartLevels.lvu.justRestarted.get k = s.lvu.justRestarted.get k := by
  have hview := s.restartLevels_slotView k
  have hcount : (s.slotView k).count = 0 := h
  unfold SlotView.restarted at hview
  rw [if_neg (by omega)] at hview
  exact ⟨congrArg SlotView.entry hview, congrArg SlotView.lastSent hview, congrArg SlotView.justRestarted hview⟩

theorem sectionLevelsCurrent_restartLevels {s : State} (h : s.SectionLevelsCurrent) : s.restartLevels.SectionLevelsCurrent := by
  have hnotes := (LevelsOnly.restartLevels s).notesOnly
  have hlevel : s.restartLevels.lvu.sectionLevel = s.lvu.sectionLevel := by simp [restartLevels, slots]
  unfold SectionLevelsCurrent sectionLevels at *
  intro k
  rw [hlevel, hnotes.grf_eq, hnotes.mst_eq]
  exact h k

end State

/-- A slot with notes, met by a restart report and then examined, ends with its entry written at the present level (R103). -/
theorem SlotView.restarted_examined {v : SlotView} (h : 0 < v.count) (k : Slot) (level : Nat) :
    ({ v.restarted k with level := level }.examined k).entry = some ⟨.level k level, 0⟩ ∧
      ({ v.restarted k with level := level }.examined k).lastSent = level ∧
      ({ v.restarted k with level := level }.examined k).level = level := by
  unfold SlotView.examined SlotView.restarted
  rw [if_pos h]
  by_cases hsame : v.level = level
  · have hdue : ({ v.written k with justRestarted := true, level := level } : SlotView).due = false := by
      simp [SlotView.due, SlotView.written, levelDue, hsame]
    simp only [hdue]
    simp [SlotView.written, hsame]
  · have hdue : ({ v.written k with justRestarted := true, level := level } : SlotView).due = true := by
      simp only [SlotView.due, SlotView.written, levelDue, if_true, Bool.and_eq_true, decide_eq_true_eq, Bool.or_eq_true]
      exact ⟨decide_eq_true h, .inl (by omega)⟩
    simp only [hdue]
    simp [SlotView.written]

/-- Settles O50. -/
theorem restartRefreshesNotesAndLevels : Obligations.RestartRefreshesNotesAndLevels := by
  refine ⟨fun s f rest hup hw hbuffer hkind h15 h0 h1 h2 hs => ?_, fun s grf => ?_⟩
  · intro due velocity
    have hdelivers : delivers .engineAlertRestarted f = true := by simp [delivers, hkind, h1]
    generalize hu : (s.popped rest).engineEvidence = u
    have hnrs : u.nrs = s.nrs := by rw [← hu]; rfl
    have hexec : exec .engineAlertRestarted s = .next u.refresh.restartLevels := by
      rw [exec_of_delivers hup hw hbuffer hdelivers, State.handOn_of_alert hkind, State.heard_of_engine h15, hu,
        State.takeAlert_eq h15]
      simp [State.afterExhausted, h0, h1, h2, State.takeRestarted]
    have hrefresh := State.refresh_eq (s := u) (by rw [hnrs]; exact hs)
    generalize u.refresh = v at hexec hrefresh
    have hlvu : v.lvu = s.lvu := by rw [hrefresh, ← hu]; rfl
    have hlevels : v.lkc.updates.levels = s.lkc.updates.levels := by rw [hrefresh, ← hu]; rfl
    have hleft := State.LevelsOnly.restartLevels v
    have hvelocity : ∀ e : RosterEntry, refreshVelocity e.articulation (s.lvu.sectionLevel.get e.slot) = velocity e := by
      intro e
      unfold refreshVelocity velocity clampInt
      cases e.articulation <;> simp <;> split_ifs <;> omega
    refine ⟨_, hexec, ?_, ?_, fun k hk => ?_, fun k hk => ?_, ?_, ?_, ?_⟩
    · rw [hleft.nrs_eq, hrefresh, hnrs]
      simp [RosterEntry.refreshed, RosterEntry.stale, due]
    · rw [hleft.noteQueue_eq, hrefresh, hnrs, ← hu]
      simp only [RosterEntry.stale]
      exact congrArg (s.lkc.noteQueue ++ ·) (List.map_congr_left fun e _ => by rw [← hvelocity e]; rfl)
    · rw [← hlvu] at hk ⊢
      exact State.restartLevels_of_count hk
    · rw [← hlvu] at hk ⊢
      rw [← hlevels]
      exact State.restartLevels_of_empty hk
    · rw [← hlvu]
      exact v.restartLevels_lvu
    · rw [hleft.notesOnly.ofu_eq, hrefresh, ← hu]
      rfl
    · have hofu : v.restartLevels.ofu = u.ofu := by rw [hleft.notesOnly.ofu_eq, hrefresh]
      rw [hofu]
      have hnotes : State.NotesOnly u v.restartLevels := by
        refine State.NotesOnly.trans ?_ hleft.notesOnly
        rw [hrefresh]
        rfl
      rw [← hu] at hnotes ⊢
      exact hnotes
  · intro written
    refine ⟨⟨State.recomputeLevels_current _, fun k hk => ?_⟩,
      ⟨State.sectionLevelsCurrent_restartLevels (State.recomputeLevels_current _), fun k hk => ?_⟩⟩
    · have hview := (s.restartLevels.setGrf grf).recomputeLevels_slotView k
      rw [State.setGrf_slotView, State.restartLevels_slotView] at hview
      obtain ⟨hentry, hlast, hlevel⟩ := SlotView.restarted_examined (v := s.slotView k) hk k
        ((s.restartLevels.setGrf grf).sectionLevels.get k)
      rw [← hview] at hentry hlast hlevel
      generalize (s.restartLevels.setGrf grf).recomputeLevels = t at hentry hlast hlevel
      rw [← hlevel] at hentry hlast
      exact ⟨hentry, hlast⟩
    · have hcount : 0 < (s.setGrf grf).recomputeLevels.lvu.slotCount.get k := by
        rw [State.recomputeLevels_slotCount]
        exact hk
      obtain ⟨hentry, hlast, -⟩ := State.restartLevels_of_count hcount
      have hlevel := congrArg LevelUnit.sectionLevel (s.setGrf grf).recomputeLevels.restartLevels_lvu
      generalize (s.setGrf grf).recomputeLevels = t at hentry hlast hlevel
      rw [hlevel]
      exact ⟨hentry, hlast⟩

end Sys2Proof.Machine
end

section
/-! PROOFS. Panics and reloads: what a roster panic does to the roster and the note queue, entry by entry in roster order,
and what a station that begins RELOADING holds. -/

namespace Sys2Proof.Machine

/-! ## Roster panic (section 5.9) -/

/-- The NOTE END that a panic queues for an entry. -/
def RosterEntry.panicItem (e : RosterEntry) : QueueItem := ⟨.stop e.tag .panic, 0⟩

namespace State

/-- The place of a queued frame once a panic has met the entries of `met`: a REFRESH-START of one of them has given it to
the NOTE END. -/
def panicPlace (s : State) (met : List RosterEntry) (i : QueueItem) : QueueItem :=
  ((met.find? fun e => s.fate e = .replaced ∧ i.frame.tag? = some e.tag).map RosterEntry.panicItem).getD i

/-- The note queue once a panic has met the entries of `met`. -/
def panicQueue (s : State) (met : List RosterEntry) : List QueueItem :=
  (s.lkc.noteQueue.filter fun i => ∀ e ∈ met, s.fate e = .withdrawn → i.frame.tag? ≠ some e.tag).map (s.panicPlace met) ++
    (met.filter fun e => s.fate e = .appended).map RosterEntry.panicItem

theorem panicPlace_tag (s : State) (met : List RosterEntry) (i : QueueItem) :
    (s.panicPlace met i).frame.tag? = i.frame.tag? := by
  unfold panicPlace
  cases h : met.find? fun e => s.fate e = .replaced ∧ i.frame.tag? = some e.tag with
  | none => rfl
  | some e =>
    have he := List.find?_some h
    simp only [decide_eq_true_eq] at he
    exact he.2.symm

theorem panicPlace_append (s : State) (met : List RosterEntry) (e : RosterEntry) (hne : ∀ x ∈ met, x.tag ≠ e.tag)
    (i : QueueItem) : s.panicPlace (met ++ [e]) i =
      if s.fate e = .replaced ∧ i.frame.tag? = some e.tag then e.panicItem else s.panicPlace met i := by
  unfold panicPlace
  rw [List.find?_append]
  by_cases h : s.fate e = .replaced ∧ i.frame.tag? = some e.tag
  · have hnone : (met.find? fun x => s.fate x = .replaced ∧ i.frame.tag? = some x.tag) = none := by
      rw [List.find?_eq_none]
      intro x hx hfound
      simp only [decide_eq_true_eq] at hfound
      exact hne x hx (Option.some.inj (hfound.2.symm.trans h.2))
    rw [hnone]
    simp [h]
  · rw [if_neg h]
    simp [h]

/-- The next entry's fate takes the queue on. -/
theorem panicQueue_append (s : State) (met : List RosterEntry) (e : RosterEntry) (hne : ∀ x ∈ met, x.tag ≠ e.tag) :
    s.panicQueue (met ++ [e]) = (s.fate e).queue e.tag .panic (s.panicQueue met) := by
  have hitem : ∀ x ∈ met, x.panicItem.frame.tag? ≠ some e.tag := fun x hx h => hne x hx (Option.some.inj h)
  have hplace := s.panicPlace_append met e hne
  unfold panicQueue
  simp only [List.forall_mem_append, List.forall_mem_singleton, List.filter_append, List.map_append]
  cases hf : s.fate e with
  | stands =>
    have hsame : s.panicPlace (met ++ [e]) = s.panicPlace met := funext fun i => by rw [hplace]; simp [hf]
    simp [hf, Fate.queue, hsame]
  | owed =>
    have hsame : s.panicPlace (met ++ [e]) = s.panicPlace met := funext fun i => by rw [hplace]; simp [hf]
    simp [hf, Fate.queue, hsame]
  | appended =>
    have hsame : s.panicPlace (met ++ [e]) = s.panicPlace met := funext fun i => by rw [hplace]; simp [hf]
    simp [hf, Fate.queue, hsame, RosterEntry.panicItem]
  | withdrawn =>
    have hsame : s.panicPlace (met ++ [e]) = s.panicPlace met := funext fun i => by rw [hplace]; simp [hf]
    have hstops : (List.filter (fun i => i.frame.tag? != some e.tag)
        ((met.filter fun e => s.fate e = .appended).map RosterEntry.panicItem)) =
          (met.filter fun e => s.fate e = .appended).map RosterEntry.panicItem := by
      refine List.filter_eq_self.2 fun i hi => ?_
      obtain ⟨x, hx, rfl⟩ := List.mem_map.1 hi
      simpa using hitem x (List.mem_of_mem_filter hx)
    simp only [Fate.queue, List.filter_append, hstops, List.filter_map, hsame, List.filter_filter]
    simp only [hf, reduceCtorEq, decide_false, Bool.false_eq_true, not_false_eq_true, List.filter_cons_of_neg, List.filter_nil,
      List.map_nil, List.append_nil, forall_const]
    refine congrArg (fun q => List.map _ q ++ _) (List.filter_congr fun i _ => ?_)
    rw [Bool.eq_iff_iff]
    simp [panicPlace_tag, and_comm]
  | replaced =>
    have hstops : (((met.filter fun e => s.fate e = .appended).map RosterEntry.panicItem).map fun i =>
        if i.frame.tag? = some e.tag then (⟨.stop e.tag .panic, 0⟩ : QueueItem) else i) =
          (met.filter fun e => s.fate e = .appended).map RosterEntry.panicItem := by
      refine (List.map_congr_left fun i hi => ?_).trans (List.map_id _)
      obtain ⟨x, hx, rfl⟩ := List.mem_map.1 hi
      exact if_neg (hitem x (List.mem_of_mem_filter hx))
    simp only [Fate.queue, List.map_append, hstops, List.map_map]
    simp only [hf, reduceCtorEq, false_implies, and_true, List.filter_nil, decide_false, Bool.false_eq_true, if_false,
      List.filter_cons, List.map_nil, List.append_nil]
    refine congrArg (· ++ _) (List.map_congr_left fun i _ => ?_)
    rw [hplace]
    simp only [hf, true_and, Function.comp_apply, panicPlace_tag]
    rfl

/-- `t` is `s` after a panic has met the entries of `met` of the roster `met ++ later`. -/
structure PanicMet (s t : State) (met later : List RosterEntry) : Prop where
  nrs : t.nrs = { s.nrs with roster := met.filterMap (fun e => (s.fate e).entry .panic e) ++ later }
  queue : t.lkc.noteQueue = s.panicQueue met
  stc : t.stc = s.stc
  attempt : s.queueInFlight = true → t.lkc.tx =
    s.lkc.tx.map fun a => if met.any (s.fate · = .owed) = true then { a with withdraw := true } else a
  inFlight : t.queueInFlight = s.queueInFlight
  flights : ∀ e ∈ later, t.tagInFlight e.tag = s.tagInFlight e.tag
  lawful : t.nrs.Lawful

theorem PanicMet.next {s t : State} {met later : List RosterEntry} {e : RosterEntry}
    (h : PanicMet s t met (e :: later)) (hne : ∀ x ∈ met ++ later, x.tag ≠ e.tag) :
    PanicMet s (t.endEntry e.tag .panic) (met ++ [e]) later := by
  have hroster : t.nrs.roster = met.filterMap (fun e => (s.fate e).entry .panic e) ++ e :: later := by rw [h.nrs]
  have he : e ∈ t.nrs.roster := by rw [hroster]; simp
  have hfate : t.fate e = s.fate e := by unfold fate; rw [h.flights e List.mem_cons_self]
  have hends := endEntry_endsAs h.lawful he .panic
  have hflights := fun {tag} => hends.tagInFlight_ne (tag := tag)
  rw [hfate] at hends
  refine ⟨?_, ?_, ?_, fun hq => ?_, hends.inFlight.trans h.inFlight, fun x hx => ?_, ?_⟩
  · rw [hends.roster_split h.lawful hroster, h.nrs]
    simp only [List.filterMap_append, List.append_assoc]
    cases hentry : (s.fate e).entry .panic e <;> simp [hentry]
  · rw [hends.queue, h.queue, panicQueue_append s met e fun x hx => hne x (List.mem_append_left _ hx)]
  · rw [hends.stc, h.stc]
    simp [Fate.control]
  · rw [hends.attempt (h.inFlight.trans hq), h.attempt hq]
    cases s.lkc.tx with
    | none => simp [Fate.attempt]
    | some a =>
      by_cases howed : s.fate e = .owed <;> by_cases hmet : met.any (s.fate · = .owed) = true <;>
        simp [Fate.attempt, howed, hmet]
  · rw [hflights (hne x (List.mem_append_right _ hx))]
    exact h.flights x (List.mem_cons_of_mem _ hx)
  · exact (NoteRoster.Shrinks.endEntry t e.tag .panic).lawful h.lawful

theorem PanicMet.all {s : State} (later : List RosterEntry) {t : State} {met : List RosterEntry}
    (h : PanicMet s t met later) (hne : ((met ++ later).map (·.tag)).Nodup) :
    PanicMet s (later.foldl (fun t e => t.endEntry e.tag .panic) t) (met ++ later) [] := by
  induction later generalizing t met with
  | nil => simpa using h
  | cons e later ih =>
    have hothers : ∀ x ∈ met ++ later, x.tag ≠ e.tag := by
      intro x hx heq
      rw [List.map_append, List.map_cons, List.nodup_middle, List.nodup_cons, ← List.map_append] at hne
      exact hne.1 (heq ▸ List.mem_map_of_mem hx)
    have hnext := ih (h.next hothers) (by simpa using hne)
    simpa using hnext

theorem PanicMet.start {s : State} (hs : s.nrs.Lawful) : PanicMet s s [] s.nrs.roster where
  nrs := rfl
  queue := by
    have hplace : s.panicPlace [] = id := rfl
    simp [panicQueue, hplace]
  stc := rfl
  attempt _ := by simp
  inFlight := rfl
  flights _ _ := rfl
  lawful := hs

/-- Every entry met its fate, in roster order. -/
theorem panicMet_fold {s : State} (hs : s.nrs.Lawful) :
    PanicMet s (s.nrs.roster.foldl (fun t e => t.endEntry e.tag .panic) s) s.nrs.roster [] := by
  have hnodup : ((([] : List RosterEntry) ++ s.nrs.roster).map (·.tag)).Nodup := by
    obtain ⟨-, -, -, hpairwise⟩ := hs
    rw [List.nil_append, List.nodup_iff_pairwise_ne, List.pairwise_map]
    exact hpairwise.imp And.left
  exact PanicMet.all s.nrs.roster (PanicMet.start hs) hnodup

/-! ## The panic -/

/-- The state whose Placement Unit a panic has silenced (R172). -/
def silenced (s : State) : State :=
  { s with plu := { s.plu with
    held := s.plu.held.map HeldRecord.silenced
    breathTimer := none
    owed := []
    heldEvents := s.plu.heldEvents.filter (· != .breathExpiry) } }

theorem endEntries_plu (a : EndArticulation) (l : List RosterEntry) (s : State) :
    (l.foldl (fun t e => t.endEntry e.tag a) s).plu = s.plu := by
  induction l generalizing s with
  | nil => rfl
  | cons e l ih => rw [List.foldl_cons, ih, endEntry_plu]

/-- A panic: the Placement Unit is silenced, every entry meets its fate, and a waiting request is owed UNPLACED. -/
theorem panic_met {s : State} (hplaying : s.playing = true) (hs : s.nrs.Lawful) : ∃ u : State,
    PanicMet s.silenced u s.nrs.roster [] ∧ u.plu = s.silenced.plu ∧
      s.panic = u.setNrs { u.nrs with answerOwed := u.nrs.waiting.isSome } := by
  refine ⟨_, panicMet_fold (s := s.silenced) hs, endEntries_plu _ _ _, ?_⟩
  unfold panic
  rw [if_pos hplaying]
  rfl

/-- The roster a panic leaves: every entry that has not gone is ENDING. -/
theorem panic_ending {s : State} (hplaying : s.playing = true) (hs : s.nrs.Lawful) :
    ∀ e ∈ s.panic.nrs.roster, e.state = .ending := by
  obtain ⟨u, hmet, -, hpanic⟩ := panic_met hplaying hs
  intro e he
  rw [hpanic, setNrs_nrs] at he
  dsimp only at he
  rw [hmet.nrs] at he
  simp only [List.append_nil, List.mem_filterMap] at he
  obtain ⟨x, -, hx⟩ := he
  cases hf : s.silenced.fate x with
  | stands =>
    rw [hf] at hx
    cases hx
    exact fate_stands_iff.1 hf
  | withdrawn => rw [hf] at hx; cases hx
  | owed => rw [hf] at hx; cases hx; rfl
  | replaced => rw [hf] at hx; cases hx; rfl
  | appended => rw [hf] at hx; cases hx; rfl

theorem panic_plu {s : State} (hplaying : s.playing = true) : s.panic.plu = s.silenced.plu := by
  unfold panic
  rw [if_pos hplaying]
  exact endEntries_plu _ _ _

theorem panic_nrs_others {s : State} (hplaying : s.playing = true) (hs : s.nrs.Lawful) :
    s.panic.nrs.waiting = s.nrs.waiting ∧ s.panic.nrs.answerOwed = s.nrs.waiting.isSome ∧ s.panic.stc = s.stc := by
  obtain ⟨u, hmet, -, hpanic⟩ := panic_met hplaying hs
  have hwaiting : u.nrs.waiting = s.nrs.waiting := by rw [hmet.nrs]; rfl
  rw [hpanic]
  exact ⟨hwaiting, congrArg Option.isSome hwaiting, hmet.stc⟩

/-- The whole effect of a panic on the roster, the queue and the attempt in flight, in the terms of section 5.9. -/
theorem panic_effect {s : State} (hplaying : s.playing = true) (hs : s.nrs.Lawful) :
    let t := s.panic
    let inFlight := fun e : RosterEntry => s.tagInFlight e.tag = true
    let withdrawn := s.nrs.roster.filter fun e => e.state = .starting ∧ ¬inFlight e
    let replaced := s.nrs.roster.filter fun e => e.state = .sounding ∧ e.queued = .refreshStart ∧ ¬inFlight e
    let owed := s.nrs.roster.filter fun e =>
      inFlight e ∧ (e.state = .starting ∨ (e.state = .sounding ∧ e.queued = .refreshStart))
    let stop := fun e : RosterEntry => QueueItem.mk (.stop e.tag .panic) 0
    t.nrs = { s.nrs with
      roster := (s.nrs.roster.filter (· ∉ withdrawn)).map fun e =>
        if e.state = .ending then e
        else { e with
          state := .ending
          queued := if e ∈ owed then e.queued else .stop
          endArticulation := some .panic
          deadline := none }
      answerOwed := s.nrs.waiting.isSome } ∧
    t.lkc.noteQueue =
      (s.lkc.noteQueue.filter fun q => ∀ e ∈ withdrawn, q.frame.tag? ≠ some e.tag).map (fun q =>
        ((replaced.find? fun e => q.frame.tag? = some e.tag).map stop).getD q) ++
      (s.nrs.roster.filter fun e => e.state = .sounding ∧ e.queued ≠ .refreshStart).map stop ∧
    (s.queueInFlight = true →
      t.lkc.tx = s.lkc.tx.map fun a => if owed = [] then a else { a with withdraw := true }) := by
  obtain ⟨u, hmet, -, hpanic⟩ := panic_met hplaying hs
  have hfate : s.silenced.fate = s.fate := rfl
  intro t inFlight withdrawn replaced owed stop
  have hwithdrawn : ∀ e ∈ s.nrs.roster, (e ∈ withdrawn ↔ s.fate e = .withdrawn) := by
    intro e he
    rw [fate_withdrawn_iff]
    simp [withdrawn, inFlight, he]
  have howed : ∀ e ∈ s.nrs.roster, (e ∈ owed ↔ s.fate e = .owed) := by
    intro e he
    rw [fate_owed_iff]
    simp [owed, inFlight, he]
  have ht : t = u.setNrs { u.nrs with answerOwed := u.nrs.waiting.isSome } := hpanic
  rw [ht]
  refine ⟨?_, ?_, fun hflight => ?_⟩
  · rw [setNrs_nrs, hmet.nrs]
    refine congrArg (fun r => ({ s.nrs with roster := r, answerOwed := s.nrs.waiting.isSome } : NoteRoster)) ?_
    rw [List.append_nil, ← List.filterMap_eq_map, List.filterMap_filter]
    refine List.filterMap_congr fun e he => ?_
    rw [hfate]
    have hw := hwithdrawn e he
    have ho := howed e he
    cases hf : s.fate e with
    | stands =>
      rw [hf] at hw
      simp [hw, Fate.entry, fate_stands_iff.1 hf]
    | withdrawn =>
      rw [hf] at hw
      simp [hw, Fate.entry]
    | owed =>
      have hst : e.state ≠ .ending := by
        rcases (fate_owed_iff.1 hf).2 with h | ⟨h, -⟩ <;> simp [h]
      rw [hf] at hw ho
      simp [hw, ho, Fate.entry, RosterEntry.toEnding, hst]
    | replaced =>
      rw [hf] at hw ho
      simp [hw, ho, Fate.entry, RosterEntry.toEnding, (fate_replaced_iff.1 hf).1]
    | appended =>
      rw [hf] at hw ho
      simp [hw, ho, Fate.entry, RosterEntry.toEnding, (fate_appended_iff.1 hf).1]
  · have hqueue : (u.setNrs { u.nrs with answerOwed := u.nrs.waiting.isSome }).lkc.noteQueue = s.panicQueue s.nrs.roster :=
      hmet.queue
    rw [hqueue]
    unfold panicQueue
    have hplace : s.panicPlace s.nrs.roster = fun q =>
        ((replaced.find? fun e => q.frame.tag? = some e.tag).map stop).getD q := by
      funext q
      unfold panicPlace
      rw [List.find?_filter]
      refine congrArg (fun o : Option RosterEntry => (o.map stop).getD q) (congrArg (List.find? · _) (funext fun e => ?_))
      rw [Bool.eq_iff_iff]
      simp [fate_replaced_iff, inFlight]
    rw [hplace]
    refine congrArg₂ (fun a b => List.map _ a ++ List.map stop b) (List.filter_congr fun q _ => ?_)
      (List.filter_congr fun e _ => by simp [fate_appended_iff])
    rw [Bool.eq_iff_iff]
    simp only [decide_eq_true_eq]
    exact ⟨fun h e he => h e (List.mem_of_mem_filter he) ((hwithdrawn e (List.mem_of_mem_filter he)).1 he),
      fun h e he hf => h e ((hwithdrawn e he).2 hf)⟩
  · refine (hmet.attempt hflight).trans ?_
    have hany : s.nrs.roster.any (s.silenced.fate · = .owed) = true ↔ owed ≠ [] := by
      rw [hfate, List.any_eq_true, ne_eq, List.eq_nil_iff_forall_not_mem, not_forall_not]
      simp only [decide_eq_true_eq]
      exact ⟨fun ⟨e, he, hf⟩ => ⟨e, (howed e he).2 hf⟩,
        fun ⟨e, he⟩ => ⟨e, List.mem_of_mem_filter he, (howed e (List.mem_of_mem_filter he)).1 he⟩⟩
    have htx : s.silenced.lkc.tx = s.lkc.tx := rfl
    rw [htx]
    refine congrArg (Option.map · _) (funext fun a => ?_)
    by_cases ho : owed = [] <;> simp [hany, ho]

end State

end Sys2Proof.Machine
end

section
/-! PROOFS. Holder releases and fades: what a release leaves, that it looks at nothing of the Placement Unit, and the breath
timer's fade (section 7.6). -/

namespace Sys2Proof.Machine

namespace State

/-! ## Releases and the units outside them -/

/-- The state with another Bellows Unit, another Placement Unit and other bits driven last. -/
def reframe (s : State) (b : BellowsUnit) (x : PlacementUnit) (d : List Bool) : State :=
  { s with blw := b, plu := x, lkc := { s.lkc with driven := d } }

@[simp] theorem reframe_lvu (s : State) (b : BellowsUnit) (x : PlacementUnit) (d : List Bool) : (s.reframe b x d).lvu = s.lvu := rfl
@[simp] theorem reframe_nrs (s : State) (b : BellowsUnit) (x : PlacementUnit) (d : List Bool) : (s.reframe b x d).nrs = s.nrs := rfl
@[simp] theorem reframe_lkc (s : State) (b : BellowsUnit) (x : PlacementUnit) (d : List Bool) : (s.reframe b x d).lkc =
    { s.lkc with driven := d } := rfl

theorem writeLevel_reframe (s : State) (b : BellowsUnit) (x : PlacementUnit) (d : List Bool) (k : Slot) :
    (s.reframe b x d).writeLevel k = (s.writeLevel k).reframe b x d := by
  rw [writeLevel_eq, writeLevel_eq]
  rfl

theorem levelRises_reframe (s : State) (b : BellowsUnit) (x : PlacementUnit) (d : List Bool) (k : Slot) :
    (s.reframe b x d).levelRises k = (s.levelRises k).reframe b x d := by
  unfold levelRises
  dsimp only [reframe_lvu]
  by_cases h : s.lvu.removalPending.get k = true
  · rw [if_pos h, ← writeLevel_reframe]
    exact if_pos h
  · rw [if_neg h]
    exact if_neg h

theorem removeLevel_reframe (s : State) (b : BellowsUnit) (x : PlacementUnit) (d : List Bool) (k : Slot) :
    (s.reframe b x d).removeLevel k = (s.removeLevel k).reframe b x d := by
  have hkey : (s.reframe b x d).keyInFlight (.level k) = s.keyInFlight (.level k) := rfl
  unfold removeLevel
  dsimp only [reframe_lkc]
  rw [hkey, removeEntry_eq, removeEntry_eq, hkey]
  cases s.lkc.updates.get (.level k) with
  | none => rfl
  | some _ =>
    cases s.keyInFlight (.level k) <;> rfl

/-- A count's report looks at neither unit. -/
theorem reportCount_reframe (s : State) (b : BellowsUnit) (x : PlacementUnit) (d : List Bool) (k : Slot) :
    (s.reframe b x d).reportCount k = (s.reportCount k).reframe b x d := by
  unfold reportCount
  dsimp only [reframe_lvu, reframe_nrs]
  by_cases hrises : s.lvu.slotCount.get k = 0 ∧ 0 < s.nrs.count k
  · rw [if_pos hrises, if_pos hrises, ← levelRises_reframe]
    rfl
  · rw [if_neg hrises, if_neg hrises]
    by_cases hfalls : 0 < s.lvu.slotCount.get k ∧ s.nrs.count k = 0
    · rw [if_pos hfalls, if_pos hfalls, ← removeLevel_reframe]
      rfl
    · rw [if_neg hfalls, if_neg hfalls]
      rfl

/-- Nor does the ending of an entry. -/
theorem endEntry_reframe (s : State) (b : BellowsUnit) (x : PlacementUnit) (d : List Bool) (tag : Nat) (a : EndArticulation) :
    (s.reframe b x d).endEntry tag a = (s.endEntry tag a).reframe b x d := by
  have hentry : (s.reframe b x d).entry? tag = s.entry? tag := rfl
  have hflight : (s.reframe b x d).tagInFlight tag = s.tagInFlight tag := rfl
  have hcount : ∀ t : State, (t.reframe b x d).countIfStolen a = (t.countIfStolen a).reframe b x d := by
    intro t
    unfold countIfStolen
    by_cases ha : a = .stolen
    · rw [if_pos ha, if_pos ha]
      rfl
    · rw [if_neg ha, if_neg ha]
  unfold endEntry
  rw [hentry, hflight]
  cases s.entry? tag with
  | none => rfl
  | some e =>
    dsimp only
    cases e.state with
    | ending => rfl
    | starting =>
      cases s.tagInFlight tag with
      | true => exact reportCount_reframe ((s.mapEntry tag (·.toEnding a)).holdWithdrawal true) b x d e.slot
      | false => exact reportCount_reframe ((s.withdrawTag tag).freeEntry tag) b x d e.slot
    | sounding =>
      have happended : (((s.reframe b x d).mapEntry tag (·.toEnding a)).queueStop tag a).reportCount e.slot =
          (((s.mapEntry tag (·.toEnding a)).queueStop tag a).reportCount e.slot).reframe b x d := by
        refine Eq.trans ?_ (reportCount_reframe _ b x d _)
        exact congrArg (State.reportCount · e.slot) (hcount
          (((s.mapEntry tag (·.toEnding a)).mapEntry tag fun e => { e with queued := .stop }).enqueue (.stop tag a)))
      cases e.queued with
      | refreshStart =>
        cases s.tagInFlight tag with
        | true => exact reportCount_reframe ((s.mapEntry tag (·.toEnding a)).holdWithdrawal true) b x d e.slot
        | false =>
          refine Eq.trans ?_ (reportCount_reframe _ b x d _)
          exact congrArg (State.reportCount · e.slot) (hcount
            ((s.mapEntry tag fun e => { e.toEnding a with queued := .stop }).replaceTag tag (.stop tag a)))
      | noFrame => exact happended
      | start => exact happended
      | stop => exact happended

theorem releaseHolder_reframe (s : State) (b : BellowsUnit) (x : PlacementUnit) (d : List Bool) (a : EndArticulation) (tag : Nat) :
    (s.reframe b x d).releaseHolder a tag = (s.releaseHolder a tag).reframe b x d := by
  have hentry : (s.reframe b x d).entry? tag = s.entry? tag := rfl
  unfold releaseHolder
  rw [hentry]
  cases s.entry? tag with
  | none => rfl
  | some e =>
    dsimp only
    by_cases hactive : e.active = true
    · rw [if_pos hactive, if_pos hactive]
      by_cases hlast : e.holders ≤ 1
      · rw [if_pos hlast, if_pos hlast, ← endEntry_reframe]
        rfl
      · rw [if_neg hlast, if_neg hlast]
        rfl
    · rw [if_neg hactive, if_neg hactive]

theorem reframe_notesOnly {s t : State} (h : State.NotesOnly s t) (x : PlacementUnit) :
    t.reframe s.blw x s.lkc.driven = t.setPlu x := by
  have hdriven : t.lkc.driven = s.lkc.driven := by
    unfold NotesOnly at h
    rw [h]
  rw [← h.blw_eq, ← hdriven]
  rfl

theorem releaseHolder_setPlu (s : State) (x : PlacementUnit) (a : EndArticulation) (tag : Nat) :
    (s.setPlu x).releaseHolder a tag = (s.releaseHolder a tag).setPlu x :=
  (releaseHolder_reframe s s.blw x s.lkc.driven a tag).trans (reframe_notesOnly (NotesOnly.releaseHolder s a tag) x)

/-- Holders released for the tags of a list, one after another. -/
def releaseAll (s : State) (a : EndArticulation) (tags : List Nat) : State :=
  tags.foldl (State.releaseHolder · a) s

theorem releaseAll_setPlu (s : State) (x : PlacementUnit) (a : EndArticulation) (tags : List Nat) :
    (s.setPlu x).releaseAll a tags = (s.releaseAll a tags).setPlu x := by
  induction tags generalizing s with
  | nil => rfl
  | cons tag tags ih =>
    unfold releaseAll at ih ⊢
    rw [List.foldl_cons, releaseHolder_setPlu, ih]
    rfl

theorem releaseAll_append (s : State) (a : EndArticulation) (l₁ l₂ : List Nat) :
    s.releaseAll a (l₁ ++ l₂) = (s.releaseAll a l₁).releaseAll a l₂ := List.foldl_append

theorem releaseAll_keeps_plu (s : State) (a : EndArticulation) (tags : List Nat) : (s.releaseAll a tags).plu = s.plu :=
  releaseAll_plu a tags s

/-! ## What releases leave -/

/-- A release leaves the Placement Unit, every counter but that of stolen notes, the waiting request and the next tag, takes
no entry's place for another, and queues nothing but NOTE ENDs of its articulation. -/
structure ReleasedTo (s t : State) (a : EndArticulation) : Prop where
  plu : t.plu = s.plu
  stc : a ≠ .stolen → t.stc = s.stc
  queue : ∀ q ∈ t.lkc.noteQueue, q ∈ s.lkc.noteQueue ∨ ∃ tag, q.frame = .stop tag a
  roster : s.nrs.Shrinks t.nrs
  waits : t.waits = s.waits
  notes : State.NotesOnly s t

namespace ReleasedTo

theorem refl (s : State) (a : EndArticulation) : ReleasedTo s s a :=
  ⟨rfl, fun _ => rfl, fun _ hq => .inl hq, .refl _, rfl, .refl s⟩

theorem trans {s t u : State} {a : EndArticulation} (h : ReleasedTo s t a) (g : ReleasedTo t u a) : ReleasedTo s u a :=
  ⟨g.plu.trans h.plu, fun ha => (g.stc ha).trans (h.stc ha), fun q hq => (g.queue q hq).elim (h.queue q) .inr,
    h.roster.trans g.roster, g.waits.trans h.waits, h.notes.trans g.notes⟩

theorem endEntry (s : State) (tag : Nat) (a : EndArticulation) : ReleasedTo s (s.endEntry tag a) a := by
  refine ⟨s.endEntry_plu tag a, fun ha => ?_, fun q hq => ?_, .endEntry s tag a, s.endEntry_waits tag a, .endEntry s tag a⟩
  · cases he : s.entry? tag with
    | none => rw [State.endEntry, he]
    | some e =>
      obtain rfl := (entry?_mem he).2
      rw [(endEntry_endsAs_of_entry he a).stc]
      simp [Fate.control, ha]
  · cases he : s.entry? tag with
    | none =>
      rw [State.endEntry, he] at hq
      exact .inl hq
    | some e =>
      obtain rfl := (entry?_mem he).2
      rw [(endEntry_endsAs_of_entry he a).queue] at hq
      cases hf : s.fate e with
      | stands => rw [hf] at hq; exact .inl hq
      | owed => rw [hf] at hq; exact .inl hq
      | withdrawn => rw [hf] at hq; exact .inl (List.mem_of_mem_filter hq)
      | appended =>
        rw [hf] at hq
        rcases List.mem_append.1 hq with hq | hq
        · exact .inl hq
        · rw [List.mem_singleton.1 hq]
          exact .inr ⟨_, rfl⟩
      | replaced =>
        rw [hf] at hq
        obtain ⟨i, hi, rfl⟩ := List.mem_map.1 hq
        split
        · exact .inr ⟨_, rfl⟩
        · exact .inl hi

theorem releaseHolder (s : State) (a : EndArticulation) (tag : Nat) : ReleasedTo s (s.releaseHolder a tag) a := by
  have hholders : ReleasedTo s (s.mapEntry tag fun e => { e with holders := e.holders - 1 }) a :=
    ⟨rfl, fun _ => rfl, fun _ hq => .inl hq, .mapEntry s tag (fun _ => rfl) (fun _ => id), rfl, rfl⟩
  rcases s.releaseHolder_cases a tag with h | ⟨e, -, -, h⟩ <;> rw [h]
  · exact refl s a
  · split
    · exact hholders.trans (endEntry _ tag a)
    · exact hholders

theorem releaseAll (s : State) (a : EndArticulation) (tags : List Nat) : ReleasedTo s (s.releaseAll a tags) a := by
  induction tags generalizing s with
  | nil => exact refl s a
  | cons tag tags ih => exact (releaseHolder s a tag).trans (ih _)

end ReleasedTo

end State

/-! ## Fades (section 7.6) -/

/-- A record after a fade (R118). -/
def HeldRecord.faded (r : HeldRecord) : HeldRecord :=
  if r.state = .placed then { r with state := .armed, tags := [] } else r

theorem HeldRecord.faded_contact (r : HeldRecord) : r.faded.contact = r.contact := by
  unfold HeldRecord.faded
  split <;> rfl

/-- The tags that a fade releases, in the order of the list and of the tag lists. -/
def fadedTags (l : List HeldRecord) : List Nat := (l.filter (·.state = .placed)).flatMap (·.tags)

theorem fadedTags_cons (r : HeldRecord) (l : List HeldRecord) :
    fadedTags (r :: l) = (if r.state = .placed then r.tags else []) ++ fadedTags l := by
  unfold fadedTags
  by_cases h : r.state = .placed <;> simp [h]

namespace State

theorem setPlu_setPlu (s : State) (x y : PlacementUnit) : (s.setPlu x).setPlu y = s.setPlu y := rfl

/-- The fade of a record between others of other contacts. -/
theorem fadeRecord_eq {s : State} {pre later : List HeldRecord} {r : HeldRecord} (h : s.plu.held = pre ++ r :: later)
    (hne : ∀ x ∈ pre ++ later, x.contact ≠ r.contact) : s.fadeRecord r =
      (s.releaseAll .fade (if r.state = .placed then r.tags else [])).setPlu
        { s.plu with held := pre ++ r.faded :: later } := by
  unfold fadeRecord
  by_cases hplaced : r.state = .placed
  · have hheld : s.plu.held.map (fun x : HeldRecord => if x.contact = r.contact then { x with state := .armed, tags := [] }
        else x) = pre ++ r.faded :: later := by
      have hsame : ∀ l : List HeldRecord, (∀ x ∈ l, x.contact ≠ r.contact) →
          (l.map fun x : HeldRecord => if x.contact = r.contact then { x with state := .armed, tags := [] } else x) = l :=
        fun l hl => (List.map_congr_left fun x hx => if_neg (hl x hx)).trans (List.map_id _)
      rw [h, List.map_append, List.map_cons, hsame pre fun x hx => hne x (List.mem_append_left _ hx),
        hsame later fun x hx => hne x (List.mem_append_right _ hx), if_pos rfl, HeldRecord.faded, if_pos hplaced]
    have hplu : (s.releaseAll .fade r.tags).plu = s.plu := s.releaseAll_keeps_plu .fade r.tags
    rw [if_pos hplaced, if_pos hplaced, ← hheld]
    unfold mapRecord
    change (s.releaseAll .fade r.tags).setPlu { (s.releaseAll .fade r.tags).plu with
      held := (s.releaseAll .fade r.tags).plu.held.map _ } = _
    rw [hplu]
  · rw [if_neg hplaced, if_neg hplaced, HeldRecord.faded, if_neg hplaced, ← h]
    rfl

theorem fade_foldl (later : List HeldRecord) {s : State} {pre : List HeldRecord} (h : s.plu.held = pre ++ later)
    (hne : ((pre ++ later).map (·.contact)).Nodup) : later.foldl fadeRecord s =
      (s.releaseAll .fade (fadedTags later)).setPlu { s.plu with held := pre ++ later.map (·.faded) } := by
  induction later generalizing s pre with
  | nil =>
    rw [List.map_nil, ← h]
    rfl
  | cons r later ih =>
    have hothers : ∀ x ∈ pre ++ later, x.contact ≠ r.contact := by
      intro x hx heq
      rw [List.map_append, List.map_cons, List.nodup_middle, List.nodup_cons, ← List.map_append] at hne
      exact hne.1 (heq ▸ List.mem_map_of_mem hx)
    rw [List.foldl_cons, fadeRecord_eq h hothers]
    rw [ih (pre := pre ++ [r.faded]) (by simp) (by simpa [HeldRecord.faded_contact] using hne)]
    rw [releaseAll_setPlu, ← releaseAll_append, ← fadedTags_cons, setPlu_setPlu]
    simp

/-- A fade (R118): the tags are released and the PLACED records become ARMED. -/
theorem fade_eq {s : State} (hs : s.HeldListLawful) : s.fade =
    (s.releaseAll .fade (fadedTags s.plu.held)).setPlu
      { s.plu with breathTimer := none, held := s.plu.held.map (·.faded) } := by
  unfold fade
  rw [fade_foldl s.plu.held (pre := []) rfl hs.2]
  rfl

/-- A fall taken (R117). -/
theorem takeFall_eq (s : State) : s.takeFall =
    if s.grf.level = 0 ∧ s.stc.station = .run ∧ (∃ r ∈ s.plu.held, r.state = .placed) then
      (if s.plu.holdTime ≠ 0 then s.setPlu { s.plu with breathTimer := some (ms s.plu.holdTime) } else s.fade)
    else s := by
  have hplaced : s.plu.held.any (·.state == .placed) = true ↔ ∃ r ∈ s.plu.held, r.state = .placed := by
    simp [List.any_eq_true]
  unfold takeFall
  simp only [hplaced, ite_not]

end State

/-- Settles O32. -/
theorem breathTimerExpiryFadesPlacedRecords : Obligations.BreathTimerExpiryFadesPlacedRecords := by
  refine ⟨fun s hup hplaying htimer => ⟨fun hsuspended => ?_, fun hsuspended hs => ?_⟩, fun s hs => ?_⟩
  · rw [exec_of_up hup]
    change Host.Outcome.next s.breathExpiry = _
    unfold State.breathExpiry
    rw [if_pos ⟨hplaying, htimer⟩, State.placementEvent_of_playing (by exact hplaying)]
    exact congrArg _ (if_pos hsuspended)
  · have hidle : ¬s.plu.suspended.isSome = true := by simp [hsuspended]
    have hexec : exec .breathTimerExpiry s = .next (s.setPlu { s.plu with breathTimer := none }).fade := by
      rw [exec_of_up hup]
      change Host.Outcome.next s.breathExpiry = _
      unfold State.breathExpiry
      rw [if_pos ⟨hplaying, htimer⟩, State.placementEvent_of_playing (by exact hplaying)]
      exact congrArg _ (if_neg hidle)
    have hfade : (s.setPlu { s.plu with breathTimer := none }).fade = (s.releaseAll .fade (fadedTags s.plu.held)).setPlu
        { s.plu with breathTimer := none, held := s.plu.held.map (·.faded) } := by
      rw [State.fade_eq (s := s.setPlu { s.plu with breathTimer := none }) hs, State.releaseAll_setPlu]
      rfl
    obtain ⟨-, hstc, hqueue, hroster, -, hnotes⟩ := State.ReleasedTo.releaseAll s .fade (fadedTags s.plu.held)
    rw [hfade] at hexec
    refine ⟨_, hexec, rfl, hnotes.trans (.setPlu _ _), hstc (by simp), hqueue, hroster.1⟩
  · rw [State.takeFall_eq, State.fade_eq hs]
    rfl

/-! ## Freshness and the falls it brings (sections 7.3 and 7.6) -/

namespace State

/-- A loss of the source is a fall of L to 0 with the direction held (R109, R110). -/
theorem sourceLost_eq (s : State) : ∃ w : State,
    State.LevelsOnly { s with
      stc := { s.stc with trouble := { s.stc.trouble with bellowsLost := true } }
      grf := { s.grf with freshness := .lost, staleTimer := none, lostTimer := none, level := 0 } } w ∧
    s.sourceLost = if s.grf.level ≠ 0 ∧ s.playing = true then w.placementEvent .fall else w := by
  generalize hv : ({ s with
    stc := { s.stc with trouble := { s.stc.trouble with bellowsLost := true } }
    grf := { s.grf with freshness := .lost, staleTimer := none, lostTimer := none } } : State) = v
  have hlevel : v.grf.level = s.grf.level := by rw [← hv]
  have hplaying : v.playing = s.playing := by rw [← hv]; rfl
  have hlost : s.sourceLost = v.setGroup v.grf.direction 0 := by rw [← hv]; rfl
  have hleft := State.LevelsOnly.regrouped v v.grf.direction 0
  have hw : (v.regrouped v.grf.direction 0).playing = s.playing := (v.regrouped_playing _ _).trans hplaying
  refine ⟨v.regrouped v.grf.direction 0, ?_, ?_⟩
  · rw [← hv] at hleft ⊢
    exact hleft
  · rw [hlost, setGroup_eq, bne_self_eq_false, hlevel]
    generalize v.regrouped v.grf.direction 0 = w at hw
    unfold groupChange
    rw [hw]
    by_cases h0 : s.grf.level = 0
    · simp [h0]
    · cases s.playing <;> simp [h0]

end State

/-- Settles O31. -/
theorem timersMoveFreshnessAndTroubleSet : Obligations.TimersMoveFreshnessAndTroubleSet := by
  refine fun s hup hw => ⟨fun htimer hfresh => ?_, fun htimer hstale => ?_, fun htimer => ?_, fun htimer => ?_⟩
  · exact (exec_of_up hup _).trans (congrArg _ (if_pos ⟨hw, htimer, hfresh⟩))
  · have hexec : exec .lostTimerExpiry s = .next s.sourceLost :=
      (exec_of_up hup _).trans (congrArg _ (if_pos ⟨hw, htimer, hstale⟩))
    obtain ⟨w, hlevels, hlost⟩ := s.sourceLost_eq
    have hplu : w.plu = s.plu := hlevels.plu_eq
    have hgrf := hlevels.notesOnly.grf_eq
    have hstation : w.stc.station = s.stc.station := hlevels.notesOnly.station_eq
    have hnotes := s.sourceLost_notesOnly
    have hplaying : w.playing = s.playing := hlevels.notesOnly.playing_eq
    refine ⟨_, hexec, hnotes, ?_⟩
    intro placed
    rw [hlost]
    refine ⟨fun h => ?_, fun h0 hplay hsuspended => ?_, fun h0 hsuspended h => ?_, fun h0 hsuspended hrun hp => ?_⟩
    · rw [if_neg (by rcases h with h | h <;> simp [h]), hplu]
    · rw [if_pos ⟨h0, hplay⟩, State.placementEvent_of_playing (hplaying.trans hplay), hplu, if_pos hsuspended]
    · split
      · rename_i hfall
        have hidle : ¬w.plu.suspended.isSome = true := by simp [hplu, hsuspended]
        rw [State.placementEvent_of_playing (hplaying.trans hfall.2), if_neg hidle]
        change w.takeFall.plu = s.plu
        rw [State.takeFall_eq, hplu, hstation, if_neg, hplu]
        rintro ⟨-, hrun, hany⟩
        rcases h with h | h
        · exact h hrun
        · exact h hany
      · exact hplu
    · have hplay : s.playing = true := by simp [State.playing, hrun]
      have hidle : ¬w.plu.suspended.isSome = true := by simp [hplu, hsuspended]
      have hlevel : w.grf.level = 0 := by rw [hgrf]
      rw [if_pos ⟨h0, hplay⟩, State.placementEvent_of_playing (hplaying.trans hplay), if_neg hidle]
      change (_ → w.takeFall.plu = _) ∧ (_ → _ → w.takeFall.plu = _)
      rw [State.takeFall_eq, hplu, hstation, if_pos ⟨hlevel, hrun, hp⟩]
      refine ⟨fun hhold => ?_, fun hhold hs => ?_⟩
      · rw [if_pos hhold]
        rfl
      · rw [if_neg (by simp [hhold]), State.fade_eq (by unfold State.HeldListLawful; rw [hplu]; exact hs), hplu]
        rfl
  · exact (exec_of_up hup _).trans (congrArg _ (if_pos ⟨hw, htimer⟩))
  · exact (exec_of_up hup _).trans (congrArg _ (if_pos ⟨hw, htimer⟩))

end Sys2Proof.Machine
end

section
/-! PROOFS. Panics by alert and by query, and the reload that begins with one (sections 11.6 to 11.8). -/

namespace Sys2Proof.Machine

/-! ## What only ends notes before a panic -/

namespace State

/-- From `s` to `t` notes have only ended, and the records kept all that a panic keeps of them. -/
structure Dwindles (s t : State) : Prop where
  roster : s.nrs.Shrinks t.nrs
  held : t.plu.held.map HeldRecord.silenced = s.plu.held.map HeldRecord.silenced

namespace Dwindles

theorem refl (s : State) : Dwindles s s := ⟨.refl _, rfl⟩

theorem trans {s t u : State} (h : Dwindles s t) (g : Dwindles t u) : Dwindles s u :=
  ⟨h.roster.trans g.roster, g.held.trans h.held⟩

theorem of_eq {s t : State} (hnrs : t.nrs = s.nrs) (hplu : t.plu.held = s.plu.held) : Dwindles s t := by
  refine ⟨?_, by rw [hplu]⟩
  rw [hnrs]
  exact .refl _

/-- A change of neither the notes nor the records may come first. -/
theorem after {s u t : State} (h : Dwindles u t) (hnrs : u.nrs = s.nrs) (hheld : u.plu.held = s.plu.held) : Dwindles s t :=
  (of_eq hnrs hheld).trans h

theorem foldl {α : Type} {f : State → α → State} (hf : ∀ s a, Dwindles s (f s a)) (l : List α) (s : State) :
    Dwindles s (l.foldl f s) := by
  induction l generalizing s with
  | nil => exact refl s
  | cons a l ih => exact (hf s a).trans (ih _)

theorem levelsOnly {s t : State} (h : LevelsOnly s t) : Dwindles s t := of_eq h.nrs_eq (by rw [h.plu_eq])

theorem endVictim (s : State) (tag : Nat) (a : EndArticulation) : Dwindles s (s.endVictim tag a) := by
  refine ⟨.endVictim s tag a, ?_⟩
  rw [endVictim_plu, List.map_map]
  rfl

theorem trimOldest (k : Slot) (a : EndArticulation) (n : Nat) (s : State) : Dwindles s (State.trimOldest k a n s) := by
  induction n generalizing s with
  | zero => exact refl s
  | succ n ih =>
    unfold State.trimOldest
    split
    · exact refl s
    · exact (endVictim s _ a).trans (ih _)

theorem trimAll (s : State) : Dwindles s s.trimAll := foldl (fun t k => trimOldest k _ _ t) _ s

theorem fade (s : State) : Dwindles s s.fade := by
  refine (foldl (f := fadeRecord) (fun t r => ?_) s.plu.held s).trans (of_eq rfl rfl)
  unfold fadeRecord
  split
  · have h := ReleasedTo.releaseAll t .fade r.tags
    refine ⟨h.roster, ?_⟩
    change (((t.releaseAll .fade r.tags).plu.held.map fun x : HeldRecord =>
      if x.contact = r.contact then { x with state := .armed, tags := [] } else x).map HeldRecord.silenced) = _
    rw [h.plu, List.map_map]
    refine List.map_congr_left fun x _ => ?_
    simp only [Function.comp]
    split <;> rfl
  · exact refl t

theorem takeFall (s : State) : Dwindles s s.takeFall := by
  rw [takeFall_eq]
  split
  · split
    · exact of_eq rfl rfl
    · exact fade s
  · exact refl s

theorem sourceLost (s : State) : Dwindles s s.sourceLost := by
  obtain ⟨w, hlevels, hlost⟩ := s.sourceLost_eq
  have hw : Dwindles s w := of_eq hlevels.nrs_eq (by rw [hlevels.plu_eq])
  rw [hlost]
  split
  · refine hw.trans ?_
    unfold placementEvent
    split
    · split
      · exact of_eq rfl rfl
      · exact takeFall w
    · exact refl w
  · exact hw

theorem followReport (s : State) : Dwindles s s.followReport := by
  rcases followReport_cases s with ⟨-, h⟩ | ⟨-, ⟨a, -, h⟩ | ⟨-, -, h⟩ | ⟨-, -, h⟩⟩
  · rw [h]; exact refl s
  · rw [h]; exact of_eq rfl rfl
  · rw [h]; exact of_eq rfl rfl
  · have hreport : s.followReport = (s.setGrf { s.grf with source := none }).sourceLost := by
      rw [h]
    rw [hreport]
    exact (sourceLost (s.setGrf { s.grf with source := none })).after rfl rfl

theorem recomputeAndTrim (s : State) : Dwindles s s.recomputeAndTrim :=
  (trimAll s.recomputeLimits).after rfl rfl

theorem peerReport (s : State) : Dwindles s s.peerReport := (followReport s).trans (recomputeAndTrim _)

theorem heard (s : State) (f : RxFrame) : Dwindles s (s.heard f) := by
  have hpeer : Dwindles s (s.peerEvidence f) := by
    rw [peerEvidence_eq]
    split
    · split
      · exact of_eq rfl rfl
      · exact (peerReport (s.setPeer f.sender ⟨true, some (ms 350), s.knownAfter f⟩)).after rfl rfl
    · exact refl s
  unfold State.heard
  split
  · exact hpeer.trans (of_eq rfl rfl)
  · exact hpeer

theorem takeExhausted (s : State) (mask : SlotMask) : Dwindles s (s.takeExhausted mask) :=
  (recomputeAndTrim (s.setOfu { s.ofu with
    cap := .ofFn fun k => if SlotMask.has mask k then some (s.nrs.count k) else s.ofu.cap.get k }).countExhaustion).after
      rfl rfl

theorem takeRestarted (s : State) : Dwindles s s.takeRestarted := by
  refine Dwindles.trans (t := s.refresh) (foldl (f := refreshEntry) (fun t e => ?_) _ s)
    (levelsOnly (LevelsOnly.restartLevels s.refresh))
  unfold refreshEntry
  split
  · exact ⟨.mapEntry t e.tag (fun _ => rfl) (fun _ => id), rfl⟩
  · exact refl t

end Dwindles

/-! ## What an alert leaves before its panic -/

/-- The Placement Unit changes in its records alone. -/
def HeldOnly (s t : State) : Prop := t.plu = { s.plu with held := t.plu.held }

theorem HeldOnly.trans {s t u : State} (h : HeldOnly s t) (g : HeldOnly t u) : HeldOnly s u := by
  unfold HeldOnly at *
  rw [g, h]

theorem HeldOnly.foldl {α : Type} {f : State → α → State} (hf : ∀ s a, HeldOnly s (f s a)) (l : List α) (s : State) :
    HeldOnly s (l.foldl f s) := by
  induction l generalizing s with
  | nil => exact rfl
  | cons a l ih => exact (hf s a).trans (ih _)

theorem HeldOnly.trimOldest (k : Slot) (a : EndArticulation) (n : Nat) (s : State) :
    HeldOnly s (State.trimOldest k a n s) := by
  induction n generalizing s with
  | zero => exact rfl
  | succ n ih =>
    unfold State.trimOldest
    split
    · exact rfl
    · rename_i v _
      have hvictim : HeldOnly s (s.endVictim v.tag a) := by
        unfold HeldOnly
        rw [endVictim_plu]
      exact hvictim.trans (ih _)

theorem HeldOnly.trimAll (s : State) : HeldOnly s s.trimAll := foldl (fun t k => trimOldest k _ _ t) _ s

theorem refresh_plu (s : State) : s.refresh.plu = s.plu := by
  have hfold : ∀ (l : List RosterEntry) (t : State), (l.foldl refreshEntry t).plu = t.plu := by
    intro l
    induction l with
    | nil => exact fun t => rfl
    | cons e l ih =>
      intro t
      rw [List.foldl_cons, ih]
      unfold refreshEntry
      split <;> rfl
  exact hfold _ s

/-- What the flags before the panic leave: the records but for their tags, the rest of the Placement Unit, what waits, and
the group. -/
structure Alerted (s t : State) : Prop where
  dwindles : Dwindles s t
  plu : t.plu = { s.plu with held := t.plu.held }
  waits : t.waits = s.waits
  grf : t.grf = s.grf
  station : t.stc.station = s.stc.station

theorem Alerted.refl (s : State) : Alerted s s := ⟨.refl s, rfl, rfl, rfl, rfl⟩

theorem Alerted.trans {s t u : State} (h : Alerted s t) (g : Alerted t u) : Alerted s u :=
  ⟨h.dwindles.trans g.dwindles, by rw [g.plu, h.plu], g.waits.trans h.waits, g.grf.trans h.grf,
    g.station.trans h.station⟩

theorem Alerted.takeExhausted (s : State) (mask : SlotMask) : Alerted s (s.takeExhausted mask) := by
  have hdwindles := Dwindles.takeExhausted s mask
  generalize hu : ((s.setOfu { s.ofu with
    cap := .ofFn fun k => if SlotMask.has mask k then some (s.nrs.count k) else s.ofu.cap.get k }).countExhaustion).recomputeLimits = u
  have htake : s.takeExhausted mask = u.trimAll := by rw [← hu]; rfl
  rw [htake] at hdwindles ⊢
  have hsame : u.plu = s.plu ∧ u.waits = s.waits ∧ u.grf = s.grf ∧ u.stc.station = s.stc.station := by
    rw [← hu]
    exact ⟨rfl, rfl, rfl, rfl⟩
  obtain ⟨hplu, hwaits, hgrf, hstation⟩ := hsame
  have hnotes := NotesOnly.trimAll u
  refine ⟨hdwindles, ?_, (trimAll_waits u).trans hwaits, hnotes.grf_eq.trans hgrf, hnotes.station_eq.trans hstation⟩
  have hheld := HeldOnly.trimAll u
  unfold HeldOnly at hheld
  rw [hheld, hplu]

theorem Alerted.takeRestarted (s : State) : Alerted s s.takeRestarted := by
  have hlevels := LevelsOnly.restartLevels s.refresh
  have hnotes := (NoteMoves.takeRestarted s).notesOnly
  have hplu : s.takeRestarted.plu = s.plu := hlevels.plu_eq.trans s.refresh_plu
  exact ⟨.takeRestarted s, by rw [hplu], (hlevels.waits_eq).trans s.refresh_waits, hnotes.grf_eq, hnotes.station_eq⟩

/-- The flags of an alert that carries PANIC: what they leave before it. -/
theorem takeAlert_panic {s : State} {f : RxFrame} (h15 : f.sender = 15) (hflag : f.alertFlag 2 = true) :
    ∃ v, Alerted s v ∧ s.takeAlert f = v.panic ∧ (f.alertFlag 0 = false → f.alertFlag 1 = false → v = s) := by
  rw [takeAlert_eq h15]
  have hexhausted : Alerted s (if f.alertFlag 0 then s.takeExhausted (f.byte 1) else s) := by
    split
    · exact .takeExhausted s _
    · exact .refl s
  have hnone : f.alertFlag 0 = false → (if f.alertFlag 0 then s.takeExhausted (f.byte 1) else s) = s := by
    intro h
    rw [h]
    rfl
  generalize (if f.alertFlag 0 then s.takeExhausted (f.byte 1) else s) = w at hexhausted hnone
  cases h1 : f.alertFlag 1 with
  | true =>
    refine ⟨w.takeRestarted, hexhausted.trans (.takeRestarted w), ?_, fun _ h => absurd h (by simp)⟩
    simp [afterExhausted, h1, hflag]
  | false =>
    refine ⟨w, hexhausted, ?_, fun h _ => hnone h⟩
    simp [afterExhausted, h1, hflag]

end State

theorem HeldRecord.silenced_contact (r : HeldRecord) : r.silenced.contact = r.contact := rfl

/-- A panic after notes have only ended, in the terms of R172. -/
theorem State.Dwindles.panic {s v : State} (h : State.Dwindles s v) (hplaying : v.playing = true) (hs : s.nrs.Lawful) :
    (∀ r ∈ v.panic.plu.held, r.state = .spent ∧ r.tags = []) ∧
    v.panic.plu.held.map (·.contact) = s.plu.held.map (·.contact) ∧ v.panic.plu.breathTimer = none ∧
    v.panic.plu.owed = [] ∧ (∀ e ∈ v.panic.nrs.roster, e.state = .ending) ∧
    v.panic.nrs.answerOwed = v.panic.nrs.waiting.isSome := by
  have hlawful := h.roster.lawful hs
  obtain ⟨hwaiting, howed, -⟩ := State.panic_nrs_others hplaying hlawful
  have hplu := State.panic_plu hplaying
  have hheld : v.panic.plu.held = s.plu.held.map HeldRecord.silenced := by
    rw [hplu]
    exact h.held
  refine ⟨fun r hr => ?_, ?_, by rw [hplu]; rfl, by rw [hplu]; rfl, State.panic_ending hplaying hlawful, ?_⟩
  · rw [hheld] at hr
    obtain ⟨x, -, rfl⟩ := List.mem_map.1 hr
    exact ⟨rfl, rfl⟩
  · rw [hheld, List.map_map]
    rfl
  · rw [howed, hwaiting]

/-- A panic after an alert's other flags leaves the Placement Unit as a panic alone does. -/
theorem State.Alerted.panic_plu {s v : State} (h : State.Alerted s v) (hplaying : v.playing = true) :
    v.panic.plu = { s.plu with
      held := s.plu.held.map fun r => { r with state := .spent, tags := [] }
      breathTimer := none
      owed := []
      heldEvents := s.plu.heldEvents.filter (· ≠ .breathExpiry) } := by
  have hevents : s.plu.heldEvents.filter (· != .breathExpiry) = s.plu.heldEvents.filter (· ≠ .breathExpiry) :=
    List.filter_congr fun e _ => by cases e <;> simp
  have hheld := h.dwindles.held
  rw [State.panic_plu hplaying, ← hevents]
  unfold State.silenced
  dsimp only
  rw [hheld, h.plu]
  rfl

/-! ## Panics by alert and by query -/

theorem State.writeStatus_eq (s : State) (r : Response) : s.writeStatus r = { s with lkc := { s.lkc with
    updates := { s.lkc.updates with status := some ⟨.status r s.stc.station s.stc.counters, 0⟩ }
    tx := s.lkc.tx.map fun a =>
      if a.source = .table .status then { a with rewritten := true, withdraw := false } else a } } := by
  unfold State.writeStatus
  rw [State.writeEntry_eq_mark]
  rfl

theorem State.playing_of_station {s t : State} (h : t.stc.station = s.stc.station) : t.playing = s.playing := by
  unfold State.playing
  rw [h]

/-- The frame's evidence, where the sender is no peer. -/
theorem State.heard_alerted {s : State} {f : RxFrame} (h13 : 13 ≤ f.sender) : State.Alerted s (s.heard f) := by
  by_cases h15 : f.sender = 15
  · rw [State.heard_of_engine h15]
    exact ⟨.of_eq rfl rfl, rfl, rfl, rfl, rfl⟩
  · have hpeer : s.isPeerAddress f.sender = false := by
      rw [Bool.eq_false_iff]
      intro h
      have := (State.isPeerAddress_iff.1 h).2.1
      omega
    rw [State.heard_of_none hpeer h15]
    exact .refl s

/-- What a panic leaves of the Placement Unit, the roster and the group, in a state that ends with it. -/
theorem State.Dwindles.panicked {s v t : State} (h : State.Dwindles s v) (hs : s.nrs.Lawful) (hplaying : s.playing = true)
    (hstation : v.stc.station = s.stc.station) (hplu : t.plu = v.panic.plu) (hnrs : t.nrs = v.panic.nrs)
    (hstc : t.stc = v.panic.stc) (hgrf : t.grf = v.panic.grf) {early : Prop} (halerted : early → State.Alerted s v) :
    (∀ r ∈ t.plu.held, r.state = .spent ∧ r.tags = []) ∧ t.plu.held.map (·.contact) = s.plu.held.map (·.contact) ∧
    t.plu.breathTimer = none ∧ t.plu.owed = [] ∧ (∀ e ∈ t.nrs.roster, e.state = .ending) ∧
    t.nrs.answerOwed = t.nrs.waiting.isSome ∧ t.stc.station = s.stc.station ∧
    (early → t.plu = { s.plu with
        held := s.plu.held.map fun r => { r with state := .spent, tags := [] }
        breathTimer := none
        owed := []
        heldEvents := s.plu.heldEvents.filter (· ≠ .breathExpiry) } ∧
      t.grf = s.grf ∧ t.nrs.waiting = s.nrs.waiting) := by
  have hplay : v.playing = true := (State.playing_of_station hstation).trans hplaying
  have hnotes := State.NotesOnly.panic v
  obtain ⟨hspent, hcontacts, hbreath, howed, hending, hanswer⟩ := h.panic hplay hs
  obtain ⟨hwaiting, -, -⟩ := State.panic_nrs_others hplay (h.roster.lawful hs)
  rw [hplu, hnrs, hstc, hgrf]
  refine ⟨hspent, hcontacts, hbreath, howed, hending, hanswer, hnotes.station_eq.trans hstation, fun he => ?_⟩
  have ha := halerted he
  obtain ⟨-, -, -, hwaits, -⟩ := State.waits_eq_iff.1 ha.waits
  exact ⟨ha.panic_plu hplay, hnotes.grf_eq.trans ha.grf, hwaiting.trans hwaits⟩

/-- Settles O51. -/
theorem panicSilencesTheStation : Obligations.PanicSilencesTheStation := by
  refine ⟨fun s c f rest hup hplaying hbuffer hs hdelivers hc => ?_, fun s hplaying hs => ?_⟩
  · have hexec := exec_of_delivers hup (State.working_of_playing hplaying) hbuffer hdelivers
    have hstation := State.heard_station (s.popped rest) f
    have hheard : State.Dwindles s ((s.popped rest).heard f) := (State.Dwindles.heard (s.popped rest) f).after rfl rfl
    have hstl := State.heard_stl (s.popped rest) f
    have hevidence : (s.popped rest).heard f =
        if f.sender = 15 then (s.popped rest).engineEvidence else (s.popped rest).peerEvidence f := by
      by_cases h15 : f.sender = 15
      · rw [State.heard_of_engine h15, if_pos h15]
      · rw [State.heard_of_ne_engine h15, if_neg h15]
    have hcalm : 13 ≤ f.sender → State.Alerted s ((s.popped rest).heard f) := by
      intro h13
      obtain ⟨-, hplu, hwaits, hgrf, -⟩ := State.heard_alerted (s := s.popped rest) h13
      exact ⟨hheard, hplu, hwaits, hgrf, hstation⟩
    have hhand : (f.kind = kindAlert → (s.popped rest).handOn f = ((s.popped rest).heard f).takeAlert f) ∧
        (f.kind = kindQuery → (s.popped rest).handOn f = ((s.popped rest).heard f).takeQuery f) :=
      ⟨fun h => State.handOn_of_alert h _, fun h => State.handOn_of_query h _⟩
    have hpopped : s.popped rest = { s with lkc := { s.lkc with rxBuffer := rest } } := rfl
    rw [hpopped] at hexec hstation hheard hevidence hcalm hstl hhand
    dsimp only
    rw [← hevidence]
    generalize ({ s with lkc := { s.lkc with rxBuffer := rest } } : State).heard f = u at hstation hheard hcalm hhand hstl
    rcases hc with ⟨rfl, h15⟩ | ⟨rfl, hown⟩
    · simp only [delivers, Bool.and_eq_true, beq_iff_eq] at hdelivers
      obtain ⟨v, halerted, htake, hsame⟩ := State.takeAlert_panic (s := u) h15 hdelivers.2
      rw [hhand.1 hdelivers.1, htake] at hexec
      obtain ⟨h1, h2, h3, h4, h5, h6, h7, h8⟩ := (hheard.trans halerted.dwindles).panicked hs hplaying
        (halerted.station.trans hstation) (t := v.panic) rfl rfl rfl rfl fun h13 => (hcalm h13).trans halerted
      exact ⟨_, hexec, h1, h2, h3, h4, h5, h6, h7, h8, fun _ h0 h1 => by rw [hsame h0 h1], fun h => absurd h (by simp)⟩
    · obtain ⟨hkind, -, haction, -, -⟩ := delivers_query hdelivers (.inr (.inl rfl))
      rw [hhand.2 hkind, State.takeQuery_of_own (by rw [hstl]; exact hown), if_neg (by simp [haction rfl]),
        if_pos (haction rfl), State.writeStatus_eq] at hexec
      obtain ⟨h1, h2, h3, h4, h5, h6, h7, h8⟩ := hheard.panicked hs hplaying hstation (t := { u.panic with
        lkc := { u.panic.lkc with
          updates := { u.panic.lkc.updates with
            status := some ⟨.status .ack u.panic.stc.station u.panic.stc.counters, 0⟩ }
          tx := u.panic.lkc.tx.map fun a =>
            if a.source = .table .status then { a with rewritten := true, withdraw := false } else a } })
        rfl rfl rfl rfl hcalm
      refine ⟨_, hexec, h1, h2, h3, h4, h5, h6, h7, h8, fun h => absurd h (by simp), fun _ => ?_⟩
      have hst : u.panic.stc.station = s.stc.station := (State.NotesOnly.panic u).station_eq.trans hstation
      rw [hst]
  · obtain ⟨hnrs, hqueue, htx⟩ := State.panic_effect hplaying hs
    obtain ⟨-, -, hstc⟩ := State.panic_nrs_others hplaying hs
    exact ⟨State.NotesOnly.panic s, hstc, State.Alerted.panic_plu (.refl s) hplaying, hnrs, hqueue, htx⟩

/-! ## The reload -/

theorem State.peerReport_units (s : State) : s.peerReport.msc = s.msc ∧ s.peerReport.blw = s.blw ∧
    s.peerReport.stc.drainTimer = s.stc.drainTimer := by
  obtain ⟨-, -, -, -, -, hnotes⟩ := s.peerReport_spec
  generalize s.peerReport = t at hnotes
  refine ⟨hnotes.msc_eq, hnotes.blw_eq, ?_⟩
  unfold State.NotesOnly at hnotes
  rw [hnotes]

/-- A frame's evidence leaves the scanner, the Bellows Unit and the drain timer. -/
theorem State.heard_units (s : State) (f : RxFrame) : (s.heard f).msc = s.msc ∧ (s.heard f).blw = s.blw ∧
    (s.heard f).stc.drainTimer = s.stc.drainTimer := by
  have hpeer : (s.peerEvidence f).msc = s.msc ∧ (s.peerEvidence f).blw = s.blw ∧
      (s.peerEvidence f).stc.drainTimer = s.stc.drainTimer := by
    rw [State.peerEvidence_eq]
    split
    · split
      · exact ⟨rfl, rfl, rfl⟩
      · exact State.peerReport_units (s.setPeer f.sender ⟨true, some (ms 350), s.knownAfter f⟩)
    · exact ⟨rfl, rfl, rfl⟩
  unfold State.heard
  split
  · exact hpeer
  · exact hpeer

/-- Settles O53. -/
theorem reloadQueryBeginsReloading : Obligations.ReloadQueryBeginsReloading := by
  intro s f rest hup hw hbuffer hdelivers hown
  obtain ⟨hkind, -, -, -, haction⟩ := delivers_query hdelivers (.inr (.inr (.inr rfl)))
  have haction := haction rfl
  have hexec := exec_of_delivers hup hw hbuffer hdelivers
  have hstl : ((s.popped rest).heard f).stl = s.stl := State.heard_stl (s.popped rest) f
  have hstation : ((s.popped rest).heard f).stc.station = s.stc.station := State.heard_station (s.popped rest) f
  obtain ⟨hmsc, hblw, hdrain⟩ : ((s.popped rest).heard f).msc = s.msc ∧ ((s.popped rest).heard f).blw = s.blw ∧
      ((s.popped rest).heard f).stc.drainTimer = s.stc.drainTimer := State.heard_units (s.popped rest) f
  have hpresence := congrArg UpdateTable.presence (State.heard_others (s.popped rest) f)
  have hdwindles : State.Dwindles s ((s.popped rest).heard f) := (State.Dwindles.heard (s.popped rest) f).after rfl rfl
  rw [State.handOn_of_query hkind, State.takeQuery_of_own (by rw [hstl]; exact hown), if_neg (by omega), if_neg (by omega),
    if_pos haction] at hexec
  generalize (s.popped rest).heard f = u at hexec hstl hstation hmsc hblw hdrain hpresence hdwindles
  by_cases hreloading : s.stc.station = .reloading
  · rw [if_pos (hstation.trans hreloading), State.writeStatus_eq] at hexec
    refine ⟨_, hexec, hstation.trans hreloading, fun h => absurd hreloading h, fun _ => ⟨hdrain, ?_, hpresence⟩⟩
    exact congrArg (fun st => some (⟨.status .busy st u.stc.counters, 0⟩ : TableEntry)) (hstation.trans hreloading)
  · have hplay : u.reloading.playing = true := rfl
    have hpanic := State.NotesOnly.panic u.reloading
    have hending : s.nrs.Lawful → ∀ e ∈ u.reloading.panic.nrs.roster, e.state = .ending :=
      fun hs => State.panic_ending hplay (hdwindles.roster.lawful hs)
    have hheld : ∀ r ∈ u.reloading.panic.plu.held, r.state = .spent ∧ r.tags = [] := by
      rw [State.panic_plu hplay]
      intro r hr
      obtain ⟨x, -, rfl⟩ := List.mem_map.1 hr
      exact ⟨rfl, rfl⟩
    rw [if_neg (by rw [hstation]; exact hreloading), State.enterReloading_explicit] at hexec
    refine ⟨_, hexec, ?_, fun _ => ⟨?_, rfl, ?_, ?_, ?_, hheld, hending, rfl, rfl, ?_⟩, fun h => absurd h hreloading⟩
    · exact hpanic.station_eq
    · have hjoin : u.reloading.panic.stc.joinTimer = none := by
        unfold State.NotesOnly at hpanic
        rw [hpanic]
        rfl
      exact hjoin
    · have hst : u.reloading.panic.stc.station = .reloading := hpanic.station_eq
      simp [State.runPin, hst]
    · exact hpanic.msc_eq.trans (by rw [← hmsc]; rfl)
    · exact hpanic.blw_eq.trans (by rw [← hblw]; rfl)
    · dsimp only
      rw [hpanic.grf_eq, hpanic.blw_eq, hpanic.stl_eq, hpanic.trouble_eq]
      rfl

end Sys2Proof.Machine
end

section
/-! PROOFS. Note requests: the effective slot, and the branches of R74 to R80. -/

namespace Sys2Proof.Machine

/-! ## The effective slot -/

/-- The fallback chains as a table (R60). -/
theorem fallback_eq (k : Slot) : fallback k =
    ([(2, 4), (5, 3), (0, 4), (1, 5), (2, 0), (1, 3), (5, 1), (1, 5)] : List (Slot × Slot)).getD k.val (0, 0) := by
  revert k
  decide

theorem OfferUnit.detected_eq_some {o : OfferUnit} {k j : Slot} {d : Detected} :
    o.detected k = some (j, d) ↔ o.table.get j = some d ∧ j = k := by
  unfold OfferUnit.detected
  cases h : o.table.get k with
  | none =>
    simp only [Option.map_none, reduceCtorEq, false_iff]
    rintro ⟨hj, rfl⟩
    rw [h] at hj
    cases hj
  | some x =>
    simp only [Option.map_some, Option.some.injEq, Prod.mk.injEq]
    constructor
    · rintro ⟨rfl, rfl⟩
      exact ⟨h, rfl⟩
    · rintro ⟨hj, rfl⟩
      exact ⟨rfl, Option.some.inj (h.symm.trans hj)⟩

theorem OfferUnit.detected_eq_none {o : OfferUnit} {k : Slot} : o.detected k = none ↔ o.table.get k = none :=
  Option.map_eq_none_iff

/-- The first detected slot of a chain of three (R60, R61). -/
theorem OfferUnit.effective_iff (o : OfferUnit) (k j : Slot) (d : Detected) : o.effective k = some (j, d) ↔
    o.table.get j = some d ∧ (j = k ∨ o.table.get k = none ∧
      (j = (fallback k).1 ∨ o.table.get (fallback k).1 = none ∧ j = (fallback k).2)) := by
  unfold OfferUnit.effective
  cases hfirst : o.detected k with
  | some x =>
    have hsome : o.table.get k ≠ none := fun h => by simp [OfferUnit.detected_eq_none.2 h] at hfirst
    dsimp only
    rw [← hfirst, OfferUnit.detected_eq_some]
    exact ⟨fun ⟨hj, hk⟩ => ⟨hj, .inl hk⟩, fun ⟨hj, h⟩ => ⟨hj, h.resolve_right fun h => hsome h.1⟩⟩
  | none =>
    have hnone := OfferUnit.detected_eq_none.1 hfirst
    have hk : o.table.get j = some d → j ≠ k := by
      rintro hj rfl
      rw [hnone] at hj
      cases hj
    dsimp only
    cases hsecond : o.detected (fallback k).1 with
    | some x =>
      have hsome : o.table.get (fallback k).1 ≠ none := fun h => by simp [OfferUnit.detected_eq_none.2 h] at hsecond
      dsimp only
      rw [← hsecond, OfferUnit.detected_eq_some]
      exact ⟨fun ⟨hj, h1⟩ => ⟨hj, .inr ⟨hnone, .inl h1⟩⟩,
        fun ⟨hj, h⟩ => ⟨hj, (h.resolve_left (hk hj)).2.resolve_right fun h => hsome h.1⟩⟩
    | none =>
      have hnone1 := OfferUnit.detected_eq_none.1 hsecond
      have hk1 : o.table.get j = some d → j ≠ (fallback k).1 := by
        rintro hj rfl
        rw [hnone1] at hj
        cases hj
      dsimp only
      rw [OfferUnit.detected_eq_some]
      exact ⟨fun ⟨hj, h2⟩ => ⟨hj, .inr ⟨hnone, .inr ⟨hnone1, h2⟩⟩⟩,
        fun ⟨hj, h⟩ => ⟨hj, ((h.resolve_left (hk hj)).2.resolve_left (hk1 hj)).2⟩⟩

theorem OfferUnit.resolve_of_none {o : OfferUnit} {r : NoteRequest} (h : o.effective r.slot = none) : o.resolve r = none := by
  unfold OfferUnit.resolve
  rw [h]
  rfl

theorem OfferUnit.resolve_of_some {o : OfferUnit} {r : NoteRequest} {k : Slot} {d : Detected}
    (h : o.effective r.slot = some (k, d)) : o.resolve r = some (k, (fold r.rawPitch d.low d.high).toNat) := by
  unfold OfferUnit.resolve
  rw [h]
  rfl

/-! ## The first free tag -/

/-- The first tag that no entry carries, counting upward from the next-tag counter (R73). -/
theorem NoteRoster.freeTag_first {n : NoteRoster} (h : n.Lawful) : ∃ i < 256, n.freeTag = (n.nextTag + i) % 256 ∧
    (∀ e ∈ n.roster, e.tag ≠ n.freeTag) ∧ ∀ j < i, ∃ e ∈ n.roster, e.tag = (n.nextTag + j) % 256 := by
  obtain ⟨hlength, hnext, -, -⟩ := h
  have hfree := (n.freeTag_spec (by omega) hnext).2
  unfold NoteRoster.freeTag at hfree ⊢
  rw [List.find?_map] at hfree ⊢
  cases hfind : (List.range 256).find? ((fun t => n.roster.all (·.tag != t)) ∘ fun i => (n.nextTag + i) % 256) with
  | none =>
    exfalso
    have hzero : (n.nextTag + (256 - n.nextTag) % 256) % 256 = 0 := by omega
    have hall := List.find?_eq_none.1 hfind ((256 - n.nextTag) % 256) (List.mem_range.2 (by omega))
    simp only [Function.comp, hzero, List.all_eq_true, not_forall] at hall
    obtain ⟨e, he, htag⟩ := hall
    rw [hfind] at hfree
    exact hfree e he (by simpa using htag)
  | some i =>
    rw [hfind] at hfree
    rw [List.find?_range_eq_some] at hfind
    obtain ⟨-, hi, hfirst⟩ := hfind
    refine ⟨i, by simpa using hi, rfl, hfree, fun j hj => ?_⟩
    have := hfirst j hj
    simpa [List.all_eq_true] using this

namespace State

/-! ## The branches of a request -/

theorem find_of_free {n : NoteRoster} {k : Slot} {pitch : Nat} (h : ∀ e ∈ n.roster, ¬(e.slot = k ∧ e.pitch = pitch)) :
    (n.roster.find? fun e => e.slot == k && e.pitch == pitch) = none := by
  rw [List.find?_eq_none]
  intro e he
  simpa using h e he

/-- In a lawful roster one entry has a slot and pitch. -/
theorem find_of_taken {n : NoteRoster} (hn : n.Lawful) {e : RosterEntry} (he : e ∈ n.roster) :
    (n.roster.find? fun x => x.slot == e.slot && x.pitch == e.pitch) = some e := by
  obtain ⟨l₁, l₂, hroster⟩ := List.append_of_mem he
  obtain ⟨-, -, -, hpairwise⟩ := hn
  rw [hroster, List.pairwise_append] at hpairwise
  have hbefore : ∀ x ∈ l₁, ¬(x.slot = e.slot ∧ x.pitch = e.pitch) :=
    fun x hx => (hpairwise.2.2 x hx e List.mem_cons_self).2
  rw [hroster, List.find?_append, List.find?_eq_none.2 fun x hx => by simpa using hbefore x hx]
  simp

/-- A change of the one entry of a tag may use what that entry is. -/
theorem mapEntry_of_mem {s : State} (hs : s.nrs.Lawful) {e : RosterEntry} (he : e ∈ s.nrs.roster)
    {f g : RosterEntry → RosterEntry} (h : f e = g e) : s.mapEntry e.tag f =
      { s with nrs := { s.nrs with roster := s.nrs.roster.map fun x => if x.tag = e.tag then g x else x } } := by
  have hroster : (s.nrs.roster.map fun x => if x.tag = e.tag then f x else x) =
      s.nrs.roster.map fun x => if x.tag = e.tag then g x else x := by
    refine List.map_congr_left fun x hx => ?_
    split
    · rename_i htag
      have hxe : x = e := Option.some.inj ((hs.find hx).symm.trans (by rw [htag]; exact hs.find he))
      rw [hxe, h]
    · rfl
  unfold mapEntry
  rw [hroster]
  rfl

theorem handleRequest_of_unresolved {s : State} {r : NoteRequest} (h : s.ofu.resolve r = none) :
    s.handleRequest r = (.unplaced, s) := by
  unfold handleRequest
  rw [h]

theorem handleRequest_of_taken {s : State} (hs : s.nrs.Lawful) {r : NoteRequest} {e : RosterEntry} (he : e ∈ s.nrs.roster)
    (h : s.ofu.resolve r = some (e.slot, e.pitch)) : s.handleRequest r =
      if e.active then (.tag e.tag, s.mapEntry e.tag (·.merged r))
      else if e.queued = .stop ∧ s.tagInFlight e.tag = true then (.waits, s.setNrs { s.nrs with waiting := some r })
      else s.revive r e := by
  unfold handleRequest
  rw [h]
  dsimp only
  rw [find_of_taken hs he]

theorem handleRequest_of_free {s : State} {r : NoteRequest} {k : Slot} {pitch : Nat}
    (h : s.ofu.resolve r = some (k, pitch)) (hfree : ∀ e ∈ s.nrs.roster, ¬(e.slot = k ∧ e.pitch = pitch)) :
    s.handleRequest r = s.newNote r k pitch := by
  unfold handleRequest
  rw [h]
  dsimp only
  rw [find_of_free hfree]

/-- A new entry (R80): the first free tag, and the NOTE START queued with its velocity. -/
theorem newEntry_effect (s : State) (r : NoteRequest) (k : Slot) (pitch : Nat) : ∃ t,
    s.newEntry r k pitch = (.tag s.nrs.freeTag, t) ∧
    t.nrs = { s.nrs with
      roster := s.nrs.roster ++ [⟨s.nrs.freeTag, k, pitch, r.articulation, 1, .starting, .start, none, r.deadline, false⟩]
      nextTag := (s.nrs.freeTag + 1) % 256 } ∧
    t.lkc.noteQueue = s.lkc.noteQueue ++ [⟨.start s.nrs.freeTag k pitch
      (startVelocity r.articulation (s.lvu.sectionLevel.get k) r.levelOffset) r.startArticulation, 0⟩] ∧
    t.plu = s.plu ∧ t.stc = s.stc := by
  refine ⟨(s.newEntry r k pitch).2, rfl, ?_, ?_, s.newEntry_plu r k pitch, ?_⟩ <;> unfold newEntry <;> dsimp only
  · rw [reportCount_nrs]
    rfl
  · rw [reportCount_noteQueue]
    rfl
  · rw [reportCount_stc]
    rfl

theorem startVelocity_eq (articulation : Articulation) (level : Nat) (offset : Int) :
    startVelocity articulation level offset =
      if articulation = .swell then 1 else (max 1 (min 127 ((level : Int) + offset))).toNat := by
  unfold startVelocity clampInt
  cases articulation <;> simp <;> split_ifs <;> omega

theorem startArticulation_eq (r : NoteRequest) : r.startArticulation =
    if r.origin = .reversal then .reversal else if r.articulation = .sustain then .normal
      else if r.articulation = .staccato then .staccato else .swell := by
  unfold NoteRequest.startArticulation
  cases r.origin <;> cases r.articulation <;> rfl

/-- A revival of an ENDING entry in a slot below its limit (R76). -/
theorem revive_effect {s : State} (hs : s.nrs.Lawful) (r : NoteRequest) {e : RosterEntry} (he : e ∈ s.nrs.roster)
    (hlimit : s.nrs.count e.slot < s.ofu.limit.get e.slot) : ∃ t, s.revive r e = (.tag e.tag, t) ∧
      t.nrs = { s.nrs with roster := s.nrs.roster.map fun x => if x.tag = e.tag then { x with
        state := if e.queued = .start then .starting else .sounding
        queued := if e.queued = .stop then .noFrame else e.queued
        endArticulation := none
        holders := 1
        articulation := r.articulation
        deadline := r.deadline } else x } ∧
      t.lkc.noteQueue = (if e.queued = .stop then s.lkc.noteQueue.filter (·.frame.tag? ≠ some e.tag)
        else s.lkc.noteQueue) ∧
      (e.queued ≠ .stop → s.queueInFlight = true →
        t.lkc.tx = s.lkc.tx.map fun a => { a with withdraw := false }) ∧
      t.plu = s.plu ∧ t.stc = s.stc ∧ State.NotesOnly s t := by
  have hnotes := State.NotesOnly.revive s r e
  unfold revive at hnotes ⊢
  rw [if_pos hlimit] at hnotes ⊢
  dsimp only at hnotes ⊢
  refine ⟨_, rfl, ?_, ?_, fun hstop hflight => ?_, ?_, ?_, hnotes⟩
  · rw [reportCount_nrs]
    have hmap : ∀ u : State, u.nrs = s.nrs → (u.mapEntry e.tag (·.revived r)).nrs = { s.nrs with
        roster := s.nrs.roster.map fun x => if x.tag = e.tag then { x with
          state := if e.queued = .start then .starting else .sounding
          queued := if e.queued = .stop then .noFrame else e.queued
          endArticulation := none
          holders := 1
          articulation := r.articulation
          deadline := r.deadline } else x } := by
      intro u hu
      rw [mapEntry_of_mem (by rw [hu]; exact hs) (by rw [hu]; exact he) (g := fun x => { x with
          state := if e.queued = .start then .starting else .sounding
          queued := if e.queued = .stop then .noFrame else e.queued
          endArticulation := none
          holders := 1
          articulation := r.articulation
          deadline := r.deadline }) rfl]
      rw [hu]
    refine hmap _ ?_
    split <;> rfl
  · rw [reportCount_noteQueue]
    split
    · simp only [mapEntry, withdrawTag, mapQueue, setNrs_lkc, setLkc_lkc]
      refine List.filter_congr fun i _ => ?_
      by_cases hi : i.frame.tag? = some e.tag <;> simp [hi]
    · rfl
  · rw [if_neg hstop]
    refine (reportCount_tx_of_head ?_ _).trans rfl
    exact (holdWithdrawal_queueInFlight s false).trans hflight
  · rw [reportCount_plu]
    split <;> rfl
  · rw [reportCount_stc]
    split <;> rfl

/-! ## Victims of a new note -/

theorem newNote_of_room {s : State} {r : NoteRequest} {k : Slot} {pitch : Nat} (h : s.nrs.count k < s.ofu.limit.get k) :
    s.newNote r k pitch = s.capacityStep r k pitch := if_pos h

theorem capacityStep_of_room {s : State} {r : NoteRequest} {k : Slot} {pitch : Nat} (h : s.nrs.roster.length < 32) :
    s.capacityStep r k pitch = s.newEntry r k pitch := if_pos h

/-- After a victim's end the request of a new note is one of a new note still. -/
theorem handleRequest_after_victim {s : State} {r : NoteRequest} {k : Slot} {pitch : Nat}
    (h : s.ofu.resolve r = some (k, pitch)) (hfree : ∀ e ∈ s.nrs.roster, ¬(e.slot = k ∧ e.pitch = pitch)) (tag : Nat)
    (a : EndArticulation) : (s.endVictim tag a).handleRequest r = (s.endVictim tag a).newNote r k pitch := by
  refine handleRequest_of_free ?_ ((NoteRoster.Shrinks.endVictim s tag a).free hfree)
  rw [(State.NotesOnly.endVictim s tag a).ofu_eq]
  exact h

/-- A note for a slot at its limit steals the slot's oldest entry (R78). -/
theorem newNote_steals {s : State} (hs : s.nrs.Lawful) {r : NoteRequest} {k : Slot} {pitch : Nat}
    (hlimit : s.ofu.limit.get k ≠ 0) (hcount : s.nrs.count k = s.ofu.limit.get k) : ∃ v, s.oldestIn k = some v ∧
      s.newNote r k pitch = (s.endVictim v.tag .stolen).newNote r k pitch := by
  cases hv : s.oldestIn k with
  | none =>
    have := count_of_oldestIn_none hv
    omega
  | some v =>
    obtain ⟨hmem, hslot, hactive⟩ := oldestIn_spec hv
    have hless := endEntry_count_lt hs hmem hactive .stolen
    have hroom : (s.endVictim v.tag .stolen).nrs.count k < (s.endVictim v.tag .stolen).ofu.limit.get k := by
      rw [(State.NotesOnly.endVictim s v.tag .stolen).ofu_eq, ← hcount, ← hslot]
      exact hless
    refine ⟨v, rfl, ?_⟩
    rw [newNote_of_room hroom]
    unfold newNote
    rw [if_neg (by omega), if_neg hlimit, hv]

/-- A full roster with nothing to steal (R79). -/
theorem capacityStep_of_all_ending {s : State} {r : NoteRequest} {k : Slot} {pitch : Nat} (hfull : s.nrs.roster.length = 32)
    (h : ∀ e ∈ s.nrs.roster, e.state = .ending) : s.capacityStep r k pitch = (.unplaced, s) := by
  have hnone : s.oldest = none := by
    unfold oldest
    rw [List.find?_eq_none]
    intro e he
    simp [RosterEntry.active, h e he]
  unfold capacityStep
  rw [if_neg (by omega), hnone]

/-- A full roster whose oldest entry is a START not in flight: the entry goes, and the request finds room (R79). -/
theorem capacityStep_frees {s : State} (hs : s.nrs.Lawful) {r : NoteRequest} {k : Slot} {pitch : Nat}
    (hfull : s.nrs.roster.length = 32) (hcount : s.nrs.count k < s.ofu.limit.get k) {v : RosterEntry}
    (hv : s.oldest = some v) (hstart : v.state = .starting) (hflight : s.tagInFlight v.tag = false) :
    s.capacityStep r k pitch = (s.endVictim v.tag .stolen).newNote r k pitch := by
  have hmem : v ∈ s.nrs.roster := List.mem_of_find?_eq_some hv
  have hends := endVictim_endsAs hs hmem .stolen
  rw [fate_withdrawn_iff.2 ⟨hstart, hflight⟩] at hends
  have hroom : (s.endVictim v.tag .stolen).nrs.roster.length < 32 := by
    rw [hends.roster_withdrawn, ← hfull]
    exact List.length_filter_lt_length_iff_exists.2 ⟨v, hmem, by simp⟩
  have hless : (s.endVictim v.tag .stolen).nrs.count k < (s.endVictim v.tag .stolen).ofu.limit.get k := by
    rw [(State.NotesOnly.endVictim s v.tag .stolen).ofu_eq]
    exact ((NoteRoster.Shrinks.endVictim s v.tag .stolen).2.2 k).trans_lt hcount
  rw [newNote_of_room hless, capacityStep_of_room hroom]
  unfold capacityStep
  rw [if_neg (by omega), hv]
  dsimp only
  rw [if_pos hroom]

/-- A full roster whose oldest entry keeps its place until its NOTE END goes out: the request is unplaced (R79). -/
theorem capacityStep_keeps {s : State} (hs : s.nrs.Lawful) {r : NoteRequest} {k : Slot} {pitch : Nat}
    (hfull : s.nrs.roster.length = 32) {v : RosterEntry} (hv : s.oldest = some v)
    (h : v.state = .sounding ∨ s.tagInFlight v.tag = true) :
    s.capacityStep r k pitch = (.unplaced, s.endVictim v.tag .stolen) := by
  have hmem : v ∈ s.nrs.roster := List.mem_of_find?_eq_some hv
  have hends := endVictim_endsAs hs hmem .stolen
  have hkept : s.fate v ≠ .withdrawn := by
    intro hw
    obtain ⟨hst, hflight⟩ := fate_withdrawn_iff.1 hw
    rcases h with h | h
    · rw [hst] at h
      cases h
    · rw [hflight] at h
      cases h
  have hlength : (s.endVictim v.tag .stolen).nrs.roster.length = 32 := by
    have := congrArg List.length (hends.tags_kept hkept)
    simpa [hfull] using this
  unfold capacityStep
  rw [if_neg (by omega), hv]
  dsimp only
  rw [if_neg (by omega)]

end State

/-- Settles O26. -/
theorem requestsMergeWaitOrStartANote : Obligations.RequestsMergeWaitOrStartANote := by
  refine ⟨fun o k j d => ?_, fun s r hs => ⟨fun hnone => ?_, fun k d hsome => ?_⟩, State.endVictim_effect⟩
  · dsimp only
    rw [← fallback_eq]
    exact o.effective_iff k j d
  · exact State.handleRequest_of_unresolved (OfferUnit.resolve_of_none hnone)
  · intro pitch
    have hresolve : s.ofu.resolve r = some (k, pitch) := OfferUnit.resolve_of_some hsome
    refine ⟨fun e he hslot hpitch => ?_, fun hfree => ?_⟩
    · subst hslot
      rw [← hpitch] at hresolve
      have htaken := State.handleRequest_of_taken hs he hresolve
      refine ⟨fun hst => ?_, fun hst hstop hflight => ?_, fun hst hwait hlimit => ?_, fun hst hwait hlimit => ?_⟩
      · have hactive : e.active = true := by simp [RosterEntry.active, hst]
        rw [htaken, if_pos hactive, State.mapEntry_of_mem hs he (g := fun x =>
          if e.articulation = .staccato ∧ r.articulation = .sustain then
            { x with holders := x.holders + 1, articulation := .sustain, deadline := none }
          else { x with holders := x.holders + 1 }) rfl]
      · rw [htaken, if_neg (by simp [RosterEntry.active, hst]), if_pos ⟨hstop, hflight⟩]
        rfl
      · rw [htaken, if_neg (by simp [RosterEntry.active, hst]), if_neg hwait]
        unfold State.revive
        exact if_neg (by omega)
      · rw [htaken, if_neg (by simp [RosterEntry.active, hst]), if_neg hwait]
        exact State.revive_effect hs r he hlimit
    · rw [State.handleRequest_of_free hresolve hfree]
      refine ⟨fun hlimit => ?_, fun hlimit hcount => ?_, fun hcount hfull => ⟨fun hending => ?_, fun v hv => ?_⟩,
        fun hcount hroom => ?_⟩
      · unfold State.newNote
        rw [if_neg (by omega), if_pos hlimit]
      · obtain ⟨v, hv, hsteal⟩ := State.newNote_steals hs (r := r) (pitch := pitch) hlimit hcount
        exact ⟨v, hv, by rw [hsteal, State.handleRequest_after_victim hresolve hfree]⟩
      · rw [State.newNote_of_room hcount, State.capacityStep_of_all_ending hfull hending]
      · rw [State.newNote_of_room hcount]
        refine ⟨fun hstart hflight => ?_, fun h => State.capacityStep_keeps hs hfull hv h⟩
        rw [State.handleRequest_after_victim hresolve hfree]
        exact State.capacityStep_frees hs hfull hcount hv hstart hflight
      · obtain ⟨i, hi, htag, hfresh, hearlier⟩ := NoteRoster.freeTag_first hs
        obtain ⟨t, hnew, hnrs, hqueue, hplu, hstc⟩ := s.newEntry_effect r k pitch
        have hnotes : State.NotesOnly s (s.newEntry r k pitch).2 := State.NotesOnly.newEntry s r k pitch
        rw [hnew] at hnotes
        rw [htag] at hnew hfresh hnrs hqueue
        rw [State.startVelocity_eq, State.startArticulation_eq] at hqueue
        refine ⟨i, hi, t, ?_, hfresh, hearlier, hnrs, hqueue, hplu, hstc, hnotes⟩
        rw [State.newNote_of_room hcount, State.capacityStep_of_room hroom]
        exact hnew

end Sys2Proof.Machine
end

section
/-! PROOFS. Presses, releases and placements: the held-button list, the requests a record sends and their answers. -/

namespace Sys2Proof.Machine

/-! ## Requests in turn -/

/-- A record without its tags. -/
def HeldRecord.untagged (r : HeldRecord) : HeldRecord := { r with tags := [] }

namespace State

theorem answerRequest_eq (s : State) (r : NoteRequest) : s.answerRequest r =
    ((s.handleRequest r).1, if (s.handleRequest r).1 = .unplaced then (s.handleRequest r).2.countUnplaced
      else (s.handleRequest r).2) := by
  unfold answerRequest
  rcases s.handleRequest r with ⟨answer, t⟩
  cases answer <;> rfl

theorem appendTag_eq (s : State) (c tag : Nat) : s.appendTag c tag = { s with plu := { s.plu with
    held := s.plu.held.map fun x => if x.contact = c then { x with tags := x.tags ++ [tag] } else x } } := rfl

theorem countUnplaced_explicit (s : State) : s.countUnplaced = { s with stc := { s.stc with counters := { s.stc.counters with
    unplacedNotes := min (s.stc.counters.unplacedNotes + 1) 65535 } } } := rfl

/-- Requests in turn, each after the answer to the one before (R54, R57). -/
theorem sendRequests_cons (c : Nat) (r : NoteRequest) (rs : List NoteRequest) (s : State) :
    State.sendRequests c (r :: rs) s = match s.handleRequest r with
      | (.tag tag, u) => State.sendRequests c rs (u.appendTag c tag)
      | (.unplaced, u) => State.sendRequests c rs u.countUnplaced
      | (.waits, u) => (u, some rs) := by
  rw [sendRequests, answerRequest_eq]
  rcases s.handleRequest r with ⟨answer, t⟩
  cases answer <;> rfl

theorem sendRequests_untagged (c : Nat) (rs : List NoteRequest) (s : State) :
    (State.sendRequests c rs s).1.plu.held.map HeldRecord.untagged = s.plu.held.map HeldRecord.untagged := by
  induction rs generalizing s with
  | nil => rfl
  | cons r rs ih =>
    have hanswer : (s.answerRequest r).2.plu.held.map HeldRecord.untagged = s.plu.held.map HeldRecord.untagged :=
      (s.answerRequest_held r).1
    have happend : ∀ (t : State) (tag : Nat),
        (t.appendTag c tag).plu.held.map HeldRecord.untagged = t.plu.held.map HeldRecord.untagged := by
      intro t tag
      rw [appendTag_eq, List.map_map]
      refine List.map_congr_left fun x _ => ?_
      simp only [Function.comp]
      split <;> rfl
    unfold State.sendRequests
    rcases hcase : s.answerRequest r with ⟨answer, t⟩
    rw [hcase] at hanswer
    cases answer with
    | tag tag => exact (ih _).trans ((happend t tag).trans hanswer)
    | unplaced => exact (ih t).trans hanswer
    | waits => exact hanswer

/-! ## Placements -/

theorem request_eq (i : NoteItem) (transposition : Int) (origin : Origin) : i.request transposition origin =
    ⟨i.pitch + i.interval + transposition, i.slot, i.articulation, i.staccatoMs, i.levelOffset, origin⟩ := rfl

/-- The placing of a record (R54). -/
theorem placeRecord_of_record {s : State} {c : Nat} {r : HeldRecord} (h : s.record? c = some r) :
    s.placeRecord c = match State.sendRequests c ((s.lookupRecord r).requests .placement)
        ({ s with
          stc := { s.stc with counters := { s.stc.counters with
            mapMisses := min (s.stc.counters.mapMisses + (s.lookupRecord r).misses) 65535 } }
          plu := { s.plu with held := s.plu.held.map fun x =>
            if x.contact = c then { x with state := .placed, direction := s.grf.direction } else x } } : State) with
      | (v, none) => v
      | (v, some waiting) => { v with plu := { v.plu with suspended := some ⟨c, waiting, [], none⟩ } } := by
  unfold placeRecord
  rw [h]
  rfl

theorem placeRecord_untagged {s : State} {c : Nat} {r : HeldRecord} (h : s.record? c = some r) :
    (s.placeRecord c).plu.held.map HeldRecord.untagged = (s.plu.held.map fun x : HeldRecord =>
      if x.contact = c then { x with state := .placed, direction := s.grf.direction } else x).map HeldRecord.untagged := by
  rw [placeRecord_of_record h]
  generalize hu : ({ s with
    stc := { s.stc with counters := { s.stc.counters with
      mapMisses := min (s.stc.counters.mapMisses + (s.lookupRecord r).misses) 65535 } }
    plu := { s.plu with held := s.plu.held.map fun x =>
      if x.contact = c then { x with state := .placed, direction := s.grf.direction } else x } } : State) = u
  have hsend := State.sendRequests_untagged c ((s.lookupRecord r).requests .placement) u
  have hheld : u.plu.held = s.plu.held.map fun x : HeldRecord =>
      if x.contact = c then { x with state := .placed, direction := s.grf.direction } else x := by rw [← hu]
  rw [← hheld, ← hsend]
  rcases State.sendRequests c ((s.lookupRecord r).requests .placement) u with ⟨v, waiting⟩
  cases waiting <;> rfl

/-! ## Presses -/

theorem takePress_of_held {s : State} {c : Nat} (h : c ∈ s.plu.held.map (·.contact)) (n : Nat) (kind : ButtonKind)
    (shiftHeld : Bool) : s.takePress c n kind shiftHeld = s := by
  unfold takePress
  rw [if_pos (by simpa [List.any_eq_true] using h)]

theorem takePress_of_new {s : State} {c : Nat} (h : c ∉ s.plu.held.map (·.contact)) (n : Nat) (kind : ButtonKind)
    (shiftHeld : Bool) : s.takePress c n kind shiftHeld =
      if 24 ≤ s.plu.held.length then s.countHeldOverflow
      else if s.stc.station = .run then
        if s.grf.level = 0 then s.appendRecord c n (pairOf kind shiftHeld) .armed
        else (s.appendRecord c n (pairOf kind shiftHeld) .placed).placeRecord c
      else s.appendRecord c n (pairOf kind shiftHeld) .spent := by
  unfold takePress
  rw [if_neg (by simpa [List.any_eq_true] using h)]

theorem pairOf_eq (kind : ButtonKind) (shiftHeld : Bool) :
    pairOf kind shiftHeld = if shiftHeld = true then PairName.alt else if kind = .bass then .bass else .treble := rfl

/-- A record appended and placed at once: its values but for the tags it is answered. -/
theorem placed_appended {s : State} {c : Nat} (h : c ∉ s.plu.held.map (·.contact)) (n : Nat) (pair : PairName) :
    ((s.appendRecord c n pair .placed).placeRecord c).plu.held.map HeldRecord.untagged =
      s.plu.held.map HeldRecord.untagged ++ [⟨c, n, pair, s.grf.direction, .placed, []⟩] := by
  have hother : ∀ x ∈ s.plu.held, x.contact ≠ c := fun x hx heq => h (heq ▸ List.mem_map_of_mem hx)
  have hrecord : (s.appendRecord c n pair .placed).record? c = some ⟨c, n, pair, s.grf.direction, .placed, []⟩ := by
    unfold record? appendRecord
    simp only [setPlu_plu]
    rw [List.find?_append, List.find?_eq_none.2 fun x hx => by simpa using hother x hx]
    simp
  rw [placeRecord_untagged hrecord]
  have hheld : (s.appendRecord c n pair .placed).plu.held = s.plu.held ++ [⟨c, n, pair, s.grf.direction, .placed, []⟩] := rfl
  have hgrf : (s.appendRecord c n pair .placed).grf = s.grf := rfl
  rw [hheld, hgrf, List.map_append, List.map_append]
  refine congrArg₂ (· ++ ·) ?_ (by simp [HeldRecord.untagged])
  rw [List.map_map]
  refine List.map_congr_left fun x hx => ?_
  simp [hother x hx]

/-! ## Releases -/

theorem takeRelease_of_none {s : State} {c : Nat} (h : c ∉ s.plu.held.map (·.contact)) : s.takeRelease c = s := by
  have hrecord : s.record? c = none := by
    unfold record?
    rw [List.find?_eq_none]
    intro x hx heq
    exact h (by rw [← (beq_iff_eq.1 heq)]; exact List.mem_map_of_mem hx)
  unfold takeRelease
  rw [hrecord]

theorem takeRelease_of_record {s : State} {c : Nat} {r : HeldRecord} (h : s.record? c = some r) : s.takeRelease c =
    { s.releaseAll .normal r.tags with plu := { s.plu with held := s.plu.held.filter (·.contact ≠ c) } } := by
  have hplu : (s.releaseAll .normal r.tags).plu = s.plu := s.releaseAll_keeps_plu .normal r.tags
  have hfilter : s.plu.held.filter (·.contact != c) = s.plu.held.filter (·.contact ≠ c) :=
    List.filter_congr fun x _ => by by_cases hx : x.contact = c <;> simp [hx]
  unfold takeRelease
  rw [h]
  change (s.releaseAll .normal r.tags).setPlu { (s.releaseAll .normal r.tags).plu with
    held := (s.releaseAll .normal r.tags).plu.held.filter (·.contact != c) } = _
  rw [hplu, hfilter]
  rfl

end State

/-- Settles O25. -/
theorem pressesAndReleasesKeepTheHeldList : Obligations.PressesAndReleasesKeepTheHeldList := by
  refine ⟨fun s c n kind shiftHeld hplaying => ?_, fun s c r h => State.placeRecord_of_record h,
    fun s c => ⟨rfl, fun r rs => State.sendRequests_cons c r rs s⟩⟩
  intro pair t u
  have ht : t = _ := State.placementEvent_of_playing hplaying (.press c n kind shiftHeld)
  have hu : u = _ := State.placementEvent_of_playing hplaying (.release c)
  refine ⟨fun hsuspended => ?_, fun hsuspended => ?_⟩
  · rw [ht, hu, if_pos hsuspended, if_pos hsuspended]
    exact ⟨rfl, rfl⟩
  · have hidle : ¬s.plu.suspended.isSome = true := by simp [hsuspended]
    rw [if_neg hidle] at ht hu
    change t = s.takePress c n kind shiftHeld at ht
    change u = s.takeRelease c at hu
    refine ⟨fun hheld => ?_, fun hnew hfull => ?_, fun hnew hroom hrun h0 => ?_, fun hnew hroom hrun h0 => ?_,
      fun hnew hroom hreloading => ?_, fun hnew => ?_, fun r hr => ?_, ?_, ?_⟩
    · rw [ht, State.takePress_of_held hheld]
    · rw [ht, State.takePress_of_new hnew, if_pos hfull]
      rfl
    · rw [ht, State.takePress_of_new hnew, if_neg (by omega), if_pos hrun, if_pos h0]
      rfl
    · rw [State.takePress_of_new hnew, if_neg (by omega), if_pos hrun, if_neg h0] at ht
      have hnotes : State.NotesOnly s t := by
        rw [ht]
        exact (State.NotesOnly.appendRecord s c n _ _).trans (.placeRecord _ c)
      have huntagged := State.placed_appended hnew n (pairOf kind shiftHeld)
      rw [← ht] at huntagged
      refine ⟨hnotes, ?_, ?_, ht⟩
      · have hcontacts := congrArg (List.map fun x : HeldRecord => x.contact) huntagged
        simpa [Function.comp_def, HeldRecord.untagged] using hcontacts
      · have hlast := congrArg List.getLast? huntagged
        rw [List.getLast?_map, List.getLast?_concat, Option.map_eq_some_iff] at hlast
        obtain ⟨r, hr, hrecord⟩ := hlast
        refine ⟨r, hr, ?_⟩
        have hr' : r = { r.untagged with tags := r.tags } := rfl
        rw [hr', hrecord]
        rfl
    · rw [ht, State.takePress_of_new hnew, if_neg (by omega), if_neg (by simp [hreloading])]
      rfl
    · rw [hu, State.takeRelease_of_none hnew]
    · rw [hu, State.takeRelease_of_record hr]
      rfl
    · rw [hu]
      exact .takeRelease s c
    · rw [hu]
      cases hr : s.record? c with
      | some r => rw [State.takeRelease_of_record hr]
      | none =>
        have hnew : c ∉ s.plu.held.map (·.contact) := by
          intro hc
          obtain ⟨x, hx, rfl⟩ := List.mem_map.1 hc
          exact List.find?_eq_none.1 hr x hx (by simp)
        rw [State.takeRelease_of_none hnew]
        refine (List.filter_eq_self.2 fun x hx => ?_).symm
        simpa using fun heq : x.contact = c => hnew (heq ▸ List.mem_map_of_mem hx)

end Sys2Proof.Machine
end

section
/-! PROOFS. The second stage of a reversal (R113): how the items of a lookup take the occurrences of a tag list. -/

namespace Sys2Proof.Machine

/-! ## Occurrences -/

/-- The slot and folded pitch of the entry that carries a tag. -/
def NoteRoster.noteOf (n : NoteRoster) (tag : Nat) : Option (Slot × Nat) :=
  (n.roster.find? (·.tag == tag)).map fun e => (e.slot, e.pitch)

theorem NoteRoster.holdsNote_iff {n : NoteRoster} {tag : Nat} {k : Slot} {pitch : Nat} :
    n.holdsNote tag k pitch = true ↔ n.noteOf tag = some (k, pitch) := by
  unfold NoteRoster.holdsNote NoteRoster.noteOf
  cases n.roster.find? (·.tag == tag) <;> simp

/-- The occurrences of the tags of one note, in their order. -/
def occurrencesOf (n : NoteRoster) (note : Option (Slot × Nat)) (occ : List (Nat × Bool)) : List (Nat × Bool) :=
  occ.filter fun x => n.noteOf x.1 = note

/-- Of the occurrences of a note the first, `taken`, are taken and the others, `free`, are not. -/
def TakenFirst (n : NoteRoster) (note : Option (Slot × Nat)) (occ : List (Nat × Bool)) (taken free : List Nat) : Prop :=
  occurrencesOf n note occ = taken.map (·, true) ++ free.map (·, false)

/-- An item takes nothing but an occurrence of its own note. -/
theorem takeOccurrence_others {n : NoteRoster} {k : Slot} {pitch : Nat} {occ occ' : List (Nat × Bool)}
    (h : takeOccurrence n k pitch occ = some occ') : occ'.map (·.1) = occ.map (·.1) ∧
      ∀ note, note ≠ some (k, pitch) → occurrencesOf n note occ' = occurrencesOf n note occ := by
  induction occ generalizing occ' with
  | nil => cases h
  | cons x occ ih =>
    obtain ⟨tag, taken⟩ := x
    unfold takeOccurrence at h
    split at h
    · rename_i hfree
      simp only [Bool.and_eq_true, NoteRoster.holdsNote_iff] at hfree
      cases h
      refine ⟨rfl, fun note hne => ?_⟩
      have hother : n.noteOf tag ≠ note := by
        rw [hfree.2]
        exact hne.symm
      simp [occurrencesOf, hother]
    · obtain ⟨occ1, h1, rfl⟩ := Option.map_eq_some_iff.1 h
      obtain ⟨htags, hothers⟩ := ih h1
      refine ⟨by simp [htags], fun note hne => ?_⟩
      have := hothers note hne
      unfold occurrencesOf at this ⊢
      rw [List.filter_cons, List.filter_cons, this]

/-- An item takes the first free occurrence of its note, where there is one. -/
theorem takeOccurrence_own {n : NoteRoster} {k : Slot} {pitch : Nat} {occ : List (Nat × Bool)} {taken free : List Nat}
    (h : TakenFirst n (some (k, pitch)) occ taken free) :
    (free = [] → takeOccurrence n k pitch occ = none) ∧
    ∀ tag rest, free = tag :: rest → ∃ occ', takeOccurrence n k pitch occ = some occ' ∧
      TakenFirst n (some (k, pitch)) occ' (taken ++ [tag]) rest := by
  induction occ generalizing taken with
  | nil =>
    have hnil : taken = [] ∧ free = [] := by
      unfold TakenFirst occurrencesOf at h
      simpa using h.symm
    obtain ⟨rfl, rfl⟩ := hnil
    exact ⟨fun _ => rfl, fun tag rest h => by cases h⟩
  | cons x occ ih =>
    obtain ⟨t, b⟩ := x
    by_cases hnote : n.noteOf t = some (k, pitch)
    · have hcons : (t, b) :: occurrencesOf n (some (k, pitch)) occ = taken.map (·, true) ++ free.map (·, false) := by
        rw [← h]
        simp [occurrencesOf, hnote]
      cases taken with
      | cons t' taken =>
        -- The first occurrence is taken: the item looks on.
        simp only [List.map_cons, List.cons_append, List.cons.injEq, Prod.mk.injEq] at hcons
        obtain ⟨⟨rfl, rfl⟩, hrest⟩ := hcons
        obtain ⟨hnone, hsome⟩ := ih hrest
        have hon : takeOccurrence n k pitch ((t, true) :: occ) = (takeOccurrence n k pitch occ).map ((t, true) :: ·) := by
          simp [takeOccurrence]
        refine ⟨fun hfree => by rw [hon, hnone hfree]; rfl, fun tag rest hfree => ?_⟩
        obtain ⟨occ', hocc, htaken⟩ := hsome tag rest hfree
        refine ⟨(t, true) :: occ', by rw [hon, hocc]; rfl, ?_⟩
        unfold TakenFirst occurrencesOf at htaken ⊢
        simp [hnote, htaken]
      | nil =>
        cases free with
        | nil => simp at hcons
        | cons t' free =>
          simp only [List.map_nil, List.nil_append, List.map_cons, List.cons.injEq, Prod.mk.injEq] at hcons
          obtain ⟨⟨rfl, rfl⟩, hrest⟩ := hcons
          refine ⟨(fun h => by cases h), fun tag rest hfree => ?_⟩
          cases hfree
          refine ⟨(t, true) :: occ, by simp [takeOccurrence, NoteRoster.holdsNote_iff.2 hnote], ?_⟩
          unfold TakenFirst occurrencesOf at *
          simp [hnote, hrest]
    · have hskip : TakenFirst n (some (k, pitch)) occ taken free := by
        unfold TakenFirst occurrencesOf at *
        simpa [hnote] using h
      obtain ⟨hnone, hsome⟩ := ih hskip
      have hholds : n.holdsNote t k pitch = false := by
        rw [Bool.eq_false_iff]
        exact fun hh => hnote (NoteRoster.holdsNote_iff.1 hh)
      have hon : takeOccurrence n k pitch ((t, b) :: occ) = (takeOccurrence n k pitch occ).map ((t, b) :: ·) := by
        simp [takeOccurrence, hholds]
      refine ⟨fun hfree => by rw [hon, hnone hfree]; rfl, fun tag rest hfree => ?_⟩
      obtain ⟨occ', hocc, htaken⟩ := hsome tag rest hfree
      refine ⟨(t, b) :: occ', by rw [hon, hocc]; rfl, ?_⟩
      unfold TakenFirst occurrencesOf at htaken ⊢
      simpa [hnote] using htaken

/-! ## Items matched in turn -/

/-- The items of requests with what each resolves to (R112). -/
def itemsOf (o : OfferUnit) (requests : List NoteRequest) : List (NoteRequest × Option (Slot × Nat)) :=
  requests.map fun q => (q, o.resolve q)

theorem matchItems_none (n : NoteRoster) {o : OfferUnit} {q : NoteRequest} (h : o.resolve q = none) (rs : List NoteRequest)
    (occ : List (Nat × Bool)) : matchItems n (itemsOf o (q :: rs)) occ =
      (q :: (matchItems n (itemsOf o rs) occ).1, (matchItems n (itemsOf o rs) occ).2) := by
  simp [itemsOf, h, matchItems]

theorem matchItems_took {n : NoteRoster} {o : OfferUnit} {q : NoteRequest} {k : Slot} {pitch : Nat}
    (h : o.resolve q = some (k, pitch)) {occ occ1 : List (Nat × Bool)} (htake : takeOccurrence n k pitch occ = some occ1)
    (rs : List NoteRequest) : matchItems n (itemsOf o (q :: rs)) occ = matchItems n (itemsOf o rs) occ1 := by
  simp [itemsOf, h, matchItems, htake]

theorem matchItems_missed {n : NoteRoster} {o : OfferUnit} {q : NoteRequest} {k : Slot} {pitch : Nat}
    (h : o.resolve q = some (k, pitch)) {occ : List (Nat × Bool)} (htake : takeOccurrence n k pitch occ = none)
    (rs : List NoteRequest) : matchItems n (itemsOf o (q :: rs)) occ =
      (q :: (matchItems n (itemsOf o rs) occ).1, (matchItems n (itemsOf o rs) occ).2) := by
  simp [itemsOf, h, matchItems, htake]

/-- The tags stand in their places, and the requests left over are some of those asked, in their order. -/
theorem matchItems_sublist (n : NoteRoster) (o : OfferUnit) (rs : List NoteRequest) (occ : List (Nat × Bool)) :
    (matchItems n (itemsOf o rs) occ).2.map (·.1) = occ.map (·.1) ∧
      (matchItems n (itemsOf o rs) occ).1.Sublist rs ∧
      occurrencesOf n none (matchItems n (itemsOf o rs) occ).2 = occurrencesOf n none occ ∧
      (matchItems n (itemsOf o rs) occ).1.filter (o.resolve · = none) = rs.filter (o.resolve · = none) := by
  induction rs generalizing occ with
  | nil => exact ⟨rfl, .refl _, rfl, rfl⟩
  | cons q rs ih =>
    cases hq : o.resolve q with
    | none =>
      obtain ⟨h1, h2, h3, h4⟩ := ih occ
      rw [matchItems_none n hq]
      exact ⟨h1, h2.cons_cons q, h3, by simp [hq, h4]⟩
    | some note =>
      obtain ⟨k, pitch⟩ := note
      cases htake : takeOccurrence n k pitch occ with
      | some occ1 =>
        obtain ⟨htags, hothers⟩ := takeOccurrence_others htake
        obtain ⟨h1, h2, h3, h4⟩ := ih occ1
        rw [matchItems_took hq htake]
        exact ⟨h1.trans htags, h2.cons q, h3.trans (hothers none (by simp)), by simp [hq, h4]⟩
      | none =>
        obtain ⟨h1, h2, h3, h4⟩ := ih occ
        rw [matchItems_missed hq htake]
        exact ⟨h1, h2.cons_cons q, h3, by simp [hq, h4]⟩

/-- Of one note as many occurrences are taken as requests ask for it, the first ones, and the requests that find none left
stay over (R113). -/
theorem matchItems_note (n : NoteRoster) (o : OfferUnit) (note : Slot × Nat) (rs : List NoteRequest)
    {occ : List (Nat × Bool)} {taken free : List Nat} (h : TakenFirst n (some note) occ taken free) :
    TakenFirst n (some note) (matchItems n (itemsOf o rs) occ).2
        (taken ++ free.take (rs.filter (o.resolve · = some note)).length)
        (free.drop (rs.filter (o.resolve · = some note)).length) ∧
      (matchItems n (itemsOf o rs) occ).1.filter (o.resolve · = some note) =
        (rs.filter (o.resolve · = some note)).drop free.length := by
  induction rs generalizing occ taken free with
  | nil => simpa [itemsOf, matchItems] using h
  | cons q rs ih =>
    cases hq : o.resolve q with
    | none =>
      rw [matchItems_none n hq]
      simpa [hq] using ih h
    | some asked =>
      obtain ⟨k, pitch⟩ := asked
      by_cases hnote : note = (k, pitch)
      · subst hnote
        obtain ⟨hnone, hsome⟩ := takeOccurrence_own h
        cases free with
        | nil =>
          rw [matchItems_missed hq (hnone rfl)]
          simpa [hq] using ih h
        | cons tag rest =>
          obtain ⟨occ1, hocc, htaken⟩ := hsome tag rest rfl
          rw [matchItems_took hq hocc]
          simpa [hq] using ih htaken
      · have hother : some (k, pitch) ≠ some note := fun heq => hnote (Option.some.inj heq).symm
        cases htake : takeOccurrence n k pitch occ with
        | some occ1 =>
          have hsame : TakenFirst n (some note) occ1 taken free :=
            ((takeOccurrence_others htake).2 (some note) hother.symm).trans h
          rw [matchItems_took hq htake]
          simpa [hq, hother, Ne.symm hnote] using ih hsame
        | none =>
          rw [matchItems_missed hq htake]
          simpa [hq, hother, Ne.symm hnote] using ih h

/-! ## The tags kept and released -/

theorem matched_eq (n : NoteRoster) (o : OfferUnit) (c misses : Nat) (tags : List Nat) (requests : List NoteRequest) :
    (Reversed.mk c tags (itemsOf o requests) misses).matched n =
      (let occ := (matchItems n (itemsOf o requests) (tags.map fun t => (t, false))).2
       ⟨c, (matchItems n (itemsOf o requests) (tags.map fun t => (t, false))).1, (occ.filter (·.2)).map (·.1),
        (occ.filter (!·.2)).map (·.1)⟩) := rfl

theorem filter_map_fst (n : NoteRoster) (note : Option (Slot × Nat)) (p : Nat × Bool → Bool) (occ : List (Nat × Bool)) :
    ((occ.filter p).map (·.1)).filter (fun tag => n.noteOf tag = note) =
      ((occurrencesOf n note occ).filter p).map (·.1) := by
  unfold occurrencesOf
  rw [List.filter_map, List.filter_filter, List.filter_filter]
  refine congrArg (List.map _) (List.filter_congr fun x _ => ?_)
  simp [Bool.and_comm]

theorem occurrencesOf_start (n : NoteRoster) (note : Option (Slot × Nat)) (tags : List Nat) :
    occurrencesOf n note (tags.map fun t => (t, false)) =
      (tags.filter fun tag => n.noteOf tag = note).map (·, false) := by
  unfold occurrencesOf
  rw [List.filter_map]
  rfl

theorem TakenFirst.kept {n : NoteRoster} {note : Option (Slot × Nat)} {occ : List (Nat × Bool)} {taken free : List Nat}
    (h : TakenFirst n note occ taken free) :
    ((occ.filter (·.2)).map (·.1)).filter (fun tag => n.noteOf tag = note) = taken ∧
      ((occ.filter (!·.2)).map (·.1)).filter (fun tag => n.noteOf tag = note) = free := by
  rw [filter_map_fst, filter_map_fst, h]
  simp [List.filter_append, List.filter_map, Function.comp_def]

/-- Every occurrence is kept or released. -/
theorem kept_length (occ : List (Nat × Bool)) :
    ((occ.filter (·.2)).map (·.1)).length + ((occ.filter (!·.2)).map (·.1)).length = occ.length := by
  induction occ with
  | nil => rfl
  | cons x occ ih =>
    obtain ⟨tag, taken⟩ := x
    cases taken <;> simp at ih ⊢ <;> omega

/-- The second stage of a reversal for one record (R113), as section 7.5 tells it. -/
theorem matched_spec (n : NoteRoster) (o : OfferUnit) (c misses : Nat) (tags : List Nat) (requests : List NoteRequest) :
    let m := (Reversed.mk c tags (requests.map fun q => (q, o.resolve q)) misses).matched n
    let note := fun tag : Nat => (n.roster.find? (·.tag == tag)).map fun e => (e.slot, e.pitch)
    m.contact = c ∧ m.kept.Sublist tags ∧ m.released.Sublist tags ∧ m.unmatched.Sublist requests ∧
      m.kept.length + m.released.length = tags.length ∧
      m.released.filter (fun tag => note tag = none) = tags.filter (fun tag => note tag = none) ∧
      m.unmatched.filter (fun q => o.resolve q = none) = requests.filter (fun q => o.resolve q = none) ∧
      ∀ (k : Slot) (pitch : Nat),
        let asked := requests.filter fun q => o.resolve q = some (k, pitch)
        let holding := tags.filter fun tag => note tag = some (k, pitch)
        m.kept.filter (fun tag => note tag = some (k, pitch)) = holding.take asked.length ∧
          m.released.filter (fun tag => note tag = some (k, pitch)) = holding.drop asked.length ∧
          m.unmatched.filter (fun q => o.resolve q = some (k, pitch)) = asked.drop holding.length := by
  obtain ⟨htags, hsub, hnone, hunresolved⟩ := matchItems_sublist n o requests (tags.map fun t => (t, false))
  have hstart : ∀ note, TakenFirst n note (tags.map fun t => (t, false)) [] (tags.filter fun tag => n.noteOf tag = note) :=
    fun note => occurrencesOf_start n note tags
  have hnote := fun p : Slot × Nat => matchItems_note n o p requests (hstart (some p))
  intro m note
  have hm : m = _ := matched_eq n o c misses tags requests
  have hbefore : (tags.map fun t => (t, false)).map (·.1) = tags := by simp [Function.comp_def]
  rw [hbefore] at htags
  generalize matchItems n (itemsOf o requests) (tags.map fun t => (t, false)) = result at hm htags hsub hnone hunresolved hnote
  obtain ⟨unmatched, occ⟩ := result
  dsimp only at hm htags hsub hnone hunresolved hnote
  rw [hm]
  have hsublist : ∀ p : Nat × Bool → Bool, ((occ.filter p).map (·.1)).Sublist tags := by
    intro p
    rw [← htags]
    exact List.filter_sublist.map _
  refine ⟨rfl, hsublist _, hsublist _, hsub, ?_, ?_, hunresolved, fun k pitch => ?_⟩
  · rw [kept_length, ← htags, List.length_map]
  · have hfree : TakenFirst n none occ [] (tags.filter fun tag => n.noteOf tag = none) := hnone.trans (hstart none)
    exact hfree.kept.2
  · obtain ⟨htaken, hleft⟩ := hnote (k, pitch)
    obtain ⟨hkept, hreleased⟩ := htaken.kept
    exact ⟨hkept, hreleased, hleft⟩

end Sys2Proof.Machine
end

section
/-! PROOFS. The Bellows Unit: samples that are missed, that join the zero capture and that end it, and what it hands to the
group and to the BELLOWS entry (chapter 3). -/

namespace Sys2Proof.Machine

namespace State

/-! ## Handing on -/

/-- The state after the Bellows Unit has handed its direction and level to the group of a LOCAL station (R45, R106). -/
theorem handBellows_eq (s : State) : s.handBellows =
    if s.grf.sourceMode = .localUnit then s.setGroup s.blw.direction s.blw.level else s := by
  unfold handBellows
  cases s.grf.sourceMode <;> rfl

theorem handBellows_notesOnly (s : State) : State.NotesOnly { s with grf := s.handBellows.grf } s.handBellows := by
  rcases s.handBellows_cases with ⟨-, h⟩ | ⟨-, h⟩
  · rw [h, setGroup_grf]
    exact setGroup_notesOnly s _ _
  · rw [h]
    exact .refl s

theorem handBellows_grf (s : State) : s.handBellows.grf = if s.grf.sourceMode = .localUnit then
    { s.grf with direction := s.blw.direction, level := s.blw.level } else s.grf := by
  rw [handBellows_eq]
  split
  · rw [setGroup_grf]
  · rfl

theorem handBellows_others (s : State) : s.handBellows.lkc.updates.others = s.lkc.updates.others := by
  rw [handBellows_eq]
  split
  · exact setGroup_others _ _ _
  · rfl

/-- The BELLOWS entry is written where the two conditions of R46 hold and the unit has changed. -/
theorem writeBellowsAfter_eq (s : State) (b : BellowsUnit) : s.writeBellowsAfter b =
    if s.stc.station = .run ∧ s.blw.phase = .measuring ∧ (b.phase ≠ .measuring ∨ b.level ≠ s.blw.level ∨
        b.direction ≠ s.blw.direction ∨ b.sensorLost ≠ s.blw.sensorLost) then
      { s with
        blw := { s.blw with heartbeat := some (ms 20) }
        lkc := { s.lkc with
          updates := { s.lkc.updates with
            bellows := some ⟨.bellows s.grf.ownGroup s.blw.direction s.blw.level s.blw.sensorLost, 0⟩ }
          tx := s.lkc.tx.map fun a =>
            if a.source = .table .bellows then { a with rewritten := true, withdraw := false } else a } }
    else s := by
  unfold writeBellowsAfter
  rw [writeBellows_eq]
  simp only [Bool.and_eq_true, bellowsWrites_iff, Bool.or_eq_true, bne_iff_ne, or_assoc, and_assoc]

/-- What handing on and the BELLOWS entry leave of the state `s`, the unit's values before being `b`. -/
structure HandedOn (s : State) (b : BellowsUnit) (t : State) : Prop where
  blw : t.blw = { s.blw with heartbeat := t.blw.heartbeat }
  trouble : t.stc.trouble = s.stc.trouble
  grf : t.grf = if s.grf.sourceMode = .localUnit then
    { s.grf with direction := s.blw.direction, level := s.blw.level } else s.grf
  written : s.stc.station = .run → s.blw.phase = .measuring → (b.phase ≠ .measuring ∨ b.level ≠ s.blw.level ∨
      b.direction ≠ s.blw.direction ∨ b.sensorLost ≠ s.blw.sensorLost) → t.blw.heartbeat = some (ms 20) ∧
    t.lkc.updates.bellows = some ⟨.bellows s.grf.ownGroup s.blw.direction s.blw.level s.blw.sensorLost, 0⟩
  unwritten : ¬(s.stc.station = .run ∧ s.blw.phase = .measuring ∧ (b.phase ≠ .measuring ∨ b.level ≠ s.blw.level ∨
      b.direction ≠ s.blw.direction ∨ b.sensorLost ≠ s.blw.sensorLost)) →
    t.blw.heartbeat = s.blw.heartbeat ∧ t.lkc.updates.bellows = s.lkc.updates.bellows
  notes : State.NotesOnly { s with blw := t.blw, grf := t.grf } t

theorem HandedOn.grf_keeps {s t : State} {b : BellowsUnit} (h : HandedOn s b t) :
    t.grf = { s.grf with direction := t.grf.direction, level := t.grf.level } := by
  rw [h.grf]
  split <;> rfl

theorem handedOn (s : State) (b : BellowsUnit) : HandedOn s b (s.handBellows.writeBellowsAfter b) := by
  have hnotes := s.handBellows_notesOnly
  have hgrf := s.handBellows_grf
  have hbellows := congrArg UpdateTable.bellows s.handBellows_others
  generalize s.handBellows = u at hnotes hgrf hbellows ⊢
  have hblw : u.blw = s.blw := hnotes.blw_eq
  have hstation : u.stc.station = s.stc.station := hnotes.station_eq
  have htrouble : u.stc.trouble = s.stc.trouble := hnotes.trouble_eq
  have hgroup : u.grf.ownGroup = s.grf.ownGroup := by rw [hgrf]; split <;> rfl
  rw [writeBellowsAfter_eq, hblw, hstation, hgroup]
  split
  · rename_i hwrites
    refine ⟨rfl, htrouble, hgrf, fun _ _ _ => ⟨rfl, rfl⟩, fun h => absurd hwrites h, ?_⟩
    unfold NotesOnly at hnotes ⊢
    rw [hnotes]
  · rename_i hidle
    refine ⟨by rw [hblw], htrouble, hgrf, fun h1 h2 h3 => absurd ⟨h1, h2, h3⟩ hidle, fun _ => ⟨by rw [hblw], hbellows⟩, ?_⟩
    rw [hblw]
    exact hnotes

/-! ## Missed samples -/

/-- The state in which the eighth missed sample has lost the sensor (R38). -/
def sensorGone (s : State) : State :=
  { s with
    stc := { s.stc with trouble := { s.stc.trouble with sensorLost := true } }
    blw := { s.blw with
      missed := 8
      outstanding := false
      sensorLost := true
      magnitude := 0
      level := 0
      samples := [] } }

theorem missSample_of_few {s : State} (h : s.blw.missed + 1 < 8 ∨ s.blw.sensorLost = true) : s.missSample =
    { s with blw := { s.blw with missed := min (s.blw.missed + 1) 8, outstanding := false } } := by
  unfold missSample
  dsimp only
  rw [if_neg]
  · rfl
  · rintro ⟨h8, hactive⟩
    rcases h with h | h
    · omega
    · rw [h] at hactive
      cases hactive

theorem missSample_of_eighth {s : State} (h8 : 8 ≤ s.blw.missed + 1) (hactive : s.blw.sensorLost = false) :
    s.missSample = s.sensorGone.handBellows.writeBellowsAfter s.blw := by
  have hmin : min (s.blw.missed + 1) 8 = 8 := by omega
  unfold missSample
  dsimp only
  rw [if_pos ⟨hmin, hactive⟩, hmin]
  rfl

theorem sampleExpiry_eq {s : State} (hphase : s.blw.phase ≠ .off) (htimer : s.blw.sampleTimer.running = true) :
    s.sampleExpiry = (if s.blw.outstanding = true then s.missSample else s).setBlw
      (if s.blw.outstanding = true then s.missSample else s).blw.convert := if_pos ⟨hphase, htimer⟩

end State

/-- Settles O27. -/
theorem sampleTimerExpiryStartsAConversion : Obligations.SampleTimerExpiryStartsAConversion := by
  refine ⟨fun s h => ?_, fun s hup hphase htimer => ?_⟩
  · unfold State.sensorSelect
    rcases h with h | h <;> simp [h]
  have hexec : exec .sampleTimerExpiry s = .next s.sampleExpiry := exec_of_up hup _
  rw [State.sampleExpiry_eq hphase htimer] at hexec
  cases houtstanding : s.blw.outstanding with
  | false =>
    rw [houtstanding] at hexec
    refine ⟨_, hexec, rfl, ?_, rfl, fun _ => rfl, (fun h => by cases h), (fun h => by cases h)⟩
    simp [State.sensorSelect, BellowsUnit.convert, hup]
  | true =>
    rw [houtstanding, if_pos rfl] at hexec
    by_cases hfew : s.blw.missed + 1 < 8 ∨ s.blw.sensorLost = true
    · rw [State.missSample_of_few hfew] at hexec
      refine ⟨_, hexec, rfl, ?_, rfl, (fun h => by cases h), fun _ _ => ?_, fun _ h8 hactive => ?_⟩
      · simp [State.sensorSelect, BellowsUnit.convert, hup]
      · exact congrArg (fun b => ({ s with blw := b } : State)) (by simp [BellowsUnit.convert, houtstanding])
      · rcases hfew with h | h
        · omega
        · rw [h] at hactive
          cases hactive
    · simp only [not_or, Bool.not_eq_true] at hfew
      obtain ⟨h8, hactive⟩ := hfew
      rw [State.missSample_of_eighth (by omega) hactive] at hexec
      have hsame : (s.sensorGone.handBellows.writeBellowsAfter s.blw).grf = { s.grf with
          direction := (s.sensorGone.handBellows.writeBellowsAfter s.blw).grf.direction
          level := (s.sensorGone.handBellows.writeBellowsAfter s.blw).grf.level } := (s.sensorGone.handedOn s.blw).grf_keeps
      obtain ⟨hblw, htrouble, hgrf, hwritten, hunwritten, hnotes⟩ := s.sensorGone.handedOn s.blw
      have hwrite := State.writeBellowsAfter_eq s.sensorGone.handBellows s.blw
      have hhanded : (if s.grf.sourceMode = .localUnit then s.sensorGone.setGroup s.blw.direction 0 else s.sensorGone) =
          s.sensorGone.handBellows := (State.handBellows_eq s.sensorGone).symm
      have hleft := s.sensorGone.handBellows_notesOnly
      have hugrf := s.sensorGone.handBellows_grf
      generalize s.sensorGone.handBellows = u at hexec hblw htrouble hgrf hwritten hunwritten hnotes hwrite hhanded hleft hugrf hsame
      generalize u.writeBellowsAfter s.blw = v at hexec hblw htrouble hgrf hwritten hunwritten hnotes hwrite hsame
      have hlow : v.resetLow = false := hnotes.resetLow_eq.trans hup
      have hsettings : v.blw.settings = s.blw.settings := by
        rw [hblw]
        rfl
      refine ⟨_, hexec, rfl, ?_, ?_, (fun h => by cases h), fun _ h => ?_, fun _ _ _ => ⟨?_, htrouble, fun hrun hmeasuring => ?_,
        fun h => ?_, fun hlocal => ?_, fun hfollow => ?_, ?_, ?_⟩⟩
      · simp [State.sensorSelect, BellowsUnit.convert, hlow, hsettings]
      · simp [BellowsUnit.convert, hsettings]
      · rcases h with h | h
        · omega
        · rw [h] at hactive
          cases hactive
      · simp only [State.setBlw_blw, BellowsUnit.convert]
        rw [hblw]
        simp [State.sensorGone, houtstanding]
      · exact hwritten hrun hmeasuring (.inr (.inr (.inr (by simp [State.sensorGone, hactive]))))
      · refine (hunwritten fun hw => ?_).1
        rcases h with h | h
        · exact h hw.1
        · exact h hw.2.1
      · exact hgrf.trans (if_pos hlocal)
      · exact hgrf.trans (if_neg (by simp [State.sensorGone, hfollow]))
      · change v.setBlw v.blw.convert = (fun handed : State => ({ handed with
          blw := v.blw.convert
          lkc := if s.stc.station = .run ∧ s.blw.phase = .measuring then { handed.lkc with
              updates := { handed.lkc.updates with
                bellows := some ⟨.bellows s.grf.ownGroup s.blw.direction 0 true, 0⟩ }
              tx := handed.lkc.tx.map fun a =>
                if a.source = .table .bellows then { a with rewritten := true, withdraw := false } else a }
            else handed.lkc } : State))
          (if s.grf.sourceMode = .localUnit then s.sensorGone.setGroup s.blw.direction 0 else s.sensorGone)
        rw [hhanded]
        dsimp only
        have hublw : u.blw = s.sensorGone.blw := hleft.blw_eq
        have hustation : u.stc.station = s.stc.station := hleft.station_eq
        have hugroup : u.grf.ownGroup = s.grf.ownGroup := by
          rw [hugrf]
          split <;> rfl
        rw [hublw, hustation, hugroup] at hwrite
        by_cases hwrites : s.stc.station = .run ∧ s.blw.phase = .measuring
        · rw [if_pos ⟨hwrites.1, hwrites.2, .inr (.inr (.inr (by simp [State.sensorGone, hactive])))⟩] at hwrite
          rw [if_pos hwrites, hwrite]
          rfl
        · rw [if_neg fun h => hwrites ⟨h.1, h.2.1⟩] at hwrite
          rw [if_neg hwrites, hwrite]
          rfl
      · change State.NotesOnly { s with
          stc := { s.stc with trouble := v.stc.trouble }
          blw := v.blw.convert
          grf := { s.grf with direction := v.grf.direction, level := v.grf.level } } (v.setBlw v.blw.convert)
        rw [← hsame, htrouble]
        unfold State.NotesOnly at hnotes ⊢
        rw [hnotes]
        rfl

/-! ## Zero capture (section 3.4) -/

theorem foldl_max_spec (cs : List Int) (c : Int) :
    (∀ x ∈ c :: cs, x ≤ cs.foldl max c) ∧ cs.foldl max c ∈ c :: cs := by
  induction cs generalizing c with
  | nil => simp
  | cons d cs ih =>
    obtain ⟨hle, hmem⟩ := ih (max c d)
    rw [List.forall_mem_cons] at hle
    refine ⟨fun x hx => ?_, ?_⟩
    · rcases List.mem_cons.1 hx with rfl | hx
      · exact (le_max_left x d).trans hle.1
      · rcases List.mem_cons.1 hx with rfl | hx
        · exact (le_max_right c x).trans hle.1
        · exact hle.2 x hx
    · rcases List.mem_cons.1 hmem with h | h
      · rcases max_choice c d with hm | hm <;> rw [List.foldl_cons, h, hm] <;> simp
      · exact List.mem_cons_of_mem _ (List.mem_cons_of_mem _ h)

theorem foldl_min_spec (cs : List Int) (c : Int) :
    (∀ x ∈ c :: cs, cs.foldl min c ≤ x) ∧ cs.foldl min c ∈ c :: cs := by
  induction cs generalizing c with
  | nil => simp
  | cons d cs ih =>
    obtain ⟨hle, hmem⟩ := ih (min c d)
    rw [List.forall_mem_cons] at hle
    refine ⟨fun x hx => ?_, ?_⟩
    · rcases List.mem_cons.1 hx with rfl | hx
      · exact hle.1.trans (min_le_left x d)
      · rcases List.mem_cons.1 hx with rfl | hx
        · exact hle.1.trans (min_le_right c x)
        · exact hle.2 x hx
    · rcases List.mem_cons.1 hmem with h | h
      · rcases min_choice c d with hm | hm <;> rw [List.foldl_cons, h, hm] <;> simp
      · exact List.mem_cons_of_mem _ (List.mem_cons_of_mem _ h)

/-- The spread of the counts is within a tolerance where any two of them are (R39). -/
theorem spread_le_iff {cs : List Int} (h : cs ≠ []) (tolerance : Int) :
    greatest cs - least cs ≤ tolerance ↔ ∀ x ∈ cs, ∀ y ∈ cs, x - y ≤ tolerance := by
  obtain ⟨c, cs, rfl⟩ := List.exists_cons_of_ne_nil h
  obtain ⟨hmax, hmaxmem⟩ := foldl_max_spec cs c
  obtain ⟨hmin, hminmem⟩ := foldl_min_spec cs c
  constructor
  · intro hspread x hx y hy
    have := hmax x hx
    have := hmin y hy
    simp only [greatest, least] at hspread
    omega
  · exact fun hall => hall _ hmaxmem _ hminmem

theorem State.sampled_eq (s : State) : s.sampled = { s with
    stc := { s.stc with trouble :=
      if s.blw.sensorLost = true then { s.stc.trouble with sensorLost := false } else s.stc.trouble }
    blw := { s.blw with outstanding := false, missed := 0, sensorLost := false } } := by
  unfold State.sampled
  dsimp only
  split <;> rfl

theorem State.sensorAnswer_of_taken {s : State} {count : BitVec 16} (hphase : s.blw.phase ≠ .off)
    (houtstanding : s.blw.outstanding = true) : s.sensorAnswer count false = s.takeSample count.toInt :=
  if_pos ⟨hphase, houtstanding, rfl⟩

/-- A count that does not fill the attempt joins it (R39). -/
theorem BellowsUnit.capture_of_few {b : BellowsUnit} {count : Int} (h : (b.samples ++ [count]).length < 16) :
    b.capture count = { b with samples := b.samples ++ [count] } := if_pos h

/-- The sixteenth count judges the attempt (R39, R40). -/
theorem BellowsUnit.capture_of_full {b : BellowsUnit} {count : Int} (h : (b.samples ++ [count]).length = 16) :
    b.capture count =
      if ∀ x ∈ b.samples ++ [count], ∀ y ∈ b.samples ++ [count], x - y ≤ b.settings.tolerance then
        b.zeroed (roundAway (b.samples ++ [count]).sum 16)
      else if b.attempt < 8 then { b with samples := [], attempt := b.attempt + 1 }
      else b.zeroed b.settings.storedZero := by
  unfold BellowsUnit.capture
  dsimp only
  rw [if_neg (by omega)]
  simp only [spread_le_iff (List.append_ne_nil_of_right_ne_nil b.samples (List.cons_ne_nil count []))]

/-- A sample in ZEROING that does not end it leaves all but the attempt and the sensor's state. -/
theorem State.takeSample_of_zeroing {s : State} (hphase : s.blw.phase = .zeroing) {count : Int} {b : BellowsUnit}
    (hb : s.sampled.blw.capture count = b) (hzeroing : b.phase = .zeroing) :
    s.takeSample count = s.sampled.setBlw b := by
  rw [State.takeSample_eq, hphase, hb]
  dsimp only
  rw [if_neg (by simp [hzeroing])]

/-- The sample that ends zeroing (R40, R45, R46). -/
theorem State.takeSample_of_zeroed {s : State} (hphase : s.blw.phase = .zeroing) {count : Int} {b : BellowsUnit}
    (hb : s.sampled.blw.capture count = b) (hmeasuring : b.phase = .measuring) :
    s.takeSample count = ((s.sampled.setBlw b).handBellows).writeBellowsAfter s.blw := by
  rw [State.takeSample_eq, hphase, hb]
  dsimp only
  rw [if_pos hmeasuring]

theorem BellowsUnit.zeroed_phase (b : BellowsUnit) (z : Int) : (b.zeroed z).phase = .measuring := rfl

theorem State.takeSample_zeroing_trouble (s : State) (hphase : s.blw.phase = .zeroing) (count : Int) :
    (s.takeSample count).stc.trouble =
      if s.blw.sensorLost = true then { s.stc.trouble with sensorLost := false } else s.stc.trouble := by
  have htrouble : s.sampled.stc.trouble =
      if s.blw.sensorLost = true then { s.stc.trouble with sensorLost := false } else s.stc.trouble := by
    rw [s.sampled_eq]
  rw [State.takeSample_eq, hphase]
  dsimp only
  split
  · exact ((s.sampled.setBlw _).handedOn s.blw).trouble.trans htrouble
  · exact htrouble

/-- Settles O29. -/
theorem zeroingSampleJoinsTheAttempt : Obligations.ZeroingSampleJoinsTheAttempt := by
  intro s count hup
  refine ⟨?_, fun h => ?_, fun hphase houtstanding => ?_⟩
  · exact (exec_of_up hup _).trans (congrArg _ (if_neg (by simp)))
  · refine (exec_of_up hup _).trans (congrArg _ (if_neg ?_))
    rcases h with h | h <;> simp [h]
  intro samples tolerance quiet b trouble
  have hexec : exec (.sensorSample count false) s = .next (s.takeSample count.toInt) :=
    (exec_of_up hup _).trans (congrArg _ (State.sensorAnswer_of_taken (by simp [hphase]) houtstanding))
  have hsampled : s.sampled = { s with stc := { s.stc with trouble := trouble }, blw := b } := s.sampled_eq
  have hblw : s.sampled.blw = b := by rw [hsampled]
  have htrouble : ∀ x, (s.sampled.setBlw x).stc.trouble = trouble := fun x => by rw [hsampled]; rfl
  have hset : ∀ x, s.sampled.setBlw x = { s with stc := { s.stc with trouble := trouble }, blw := x } :=
    fun x => by rw [hsampled]; rfl
  by_cases hfew : samples.length < 16
  · have htake : s.takeSample count.toInt = s.sampled.setBlw { b with samples := samples } :=
      State.takeSample_of_zeroing hphase (by rw [hblw]; exact BellowsUnit.capture_of_few (b := b) hfew) hphase
    rw [htake] at hexec
    exact ⟨_, hexec, htrouble _, fun _ => hset _, fun h => by omega, fun h => by omega⟩
  by_cases hfull : samples.length = 16
  · have hcapture := BellowsUnit.capture_of_full (b := b) (count := count.toInt) hfull
    by_cases hagain : ¬quiet ∧ s.blw.attempt < 8
    · rw [if_neg (by exact hagain.1), if_pos (by exact hagain.2)] at hcapture
      have htake : s.takeSample count.toInt = s.sampled.setBlw { b with samples := [], attempt := s.blw.attempt + 1 } :=
        State.takeSample_of_zeroing hphase (by rw [hblw]; exact hcapture) hphase
      rw [htake] at hexec
      refine ⟨_, hexec, htrouble _, fun h => by omega, fun _ _ _ => hset _, fun _ h => ?_⟩
      rcases h with h | h
      · exact absurd h hagain.1
      · omega
    · have hzeroed : b.capture count.toInt =
          b.zeroed (if quiet then roundAway samples.sum 16 else s.blw.settings.storedZero) := by
        by_cases hquiet : quiet
        · rw [if_pos hquiet]
          exact hcapture.trans (if_pos (by exact hquiet))
        · have hattempt : ¬s.blw.attempt < 8 := fun h => hagain ⟨hquiet, h⟩
          rw [if_neg hquiet]
          exact hcapture.trans ((if_neg (by exact hquiet)).trans (if_neg (by exact hattempt)))
      have htake := State.takeSample_of_zeroed hphase (by rw [hblw]; exact hzeroed) (BellowsUnit.zeroed_phase b _)
      rw [htake, hset] at hexec
      have hon := State.handedOn ({ s with
        stc := { s.stc with trouble := trouble }
        blw := b.zeroed (if quiet then roundAway samples.sum 16 else s.blw.settings.storedZero) } : State) s.blw
      generalize (State.writeBellowsAfter _ s.blw) = t at hexec hon
      have hsame := hon.grf_keeps
      obtain ⟨hb, ht, hgrf, hwritten, -, hnotes⟩ := hon
      refine ⟨t, hexec, ht, fun h => by omega, fun _ h1 h2 => absurd ⟨h1, h2⟩ hagain, fun _ _ =>
        ⟨hb, fun hlocal => ?_, fun hrun => hwritten hrun rfl (.inl (by simp [hphase])), ?_⟩⟩
      · rw [hgrf, if_pos (by exact hlocal)]
        exact ⟨rfl, rfl⟩
      · dsimp only at hsame
        rw [← hsame]
        exact hnotes
  · exact ⟨_, hexec, s.takeSample_zeroing_trouble hphase count.toInt, fun h => absurd h hfew, fun h => absurd h hfull, fun h => absurd h hfull⟩

end Sys2Proof.Machine
end

section
/-! PROOFS. What the Note Roster and the Placement Unit do looks at nothing of the Bellows Unit, nor at the bits driven last,
and leaves both. -/

namespace Sys2Proof.Machine

namespace State

/-- The state with another Bellows Unit and other bits driven last. -/
def recast (s : State) (b : BellowsUnit) (d : List Bool) : State :=
  { s with blw := b, lkc := { s.lkc with driven := d } }

@[simp] theorem recast_stc (s : State) (b : BellowsUnit) (d : List Bool) : (s.recast b d).stc = s.stc := rfl
@[simp] theorem recast_grf (s : State) (b : BellowsUnit) (d : List Bool) : (s.recast b d).grf = s.grf := rfl
@[simp] theorem recast_plu (s : State) (b : BellowsUnit) (d : List Bool) : (s.recast b d).plu = s.plu := rfl
@[simp] theorem recast_nrs (s : State) (b : BellowsUnit) (d : List Bool) : (s.recast b d).nrs = s.nrs := rfl
@[simp] theorem recast_lvu (s : State) (b : BellowsUnit) (d : List Bool) : (s.recast b d).lvu = s.lvu := rfl
@[simp] theorem recast_ofu (s : State) (b : BellowsUnit) (d : List Bool) : (s.recast b d).ofu = s.ofu := rfl

/-! ## Requests -/

theorem endEntry_recast (s : State) (b : BellowsUnit) (d : List Bool) (tag : Nat) (a : EndArticulation) :
    (s.recast b d).endEntry tag a = (s.endEntry tag a).recast b d :=
  (endEntry_reframe s b s.plu d tag a).trans
    (congrArg (fun x => (({ s.endEntry tag a with plu := x } : State).recast b d)) (s.endEntry_plu tag a).symm)

theorem releaseHolder_recast (s : State) (b : BellowsUnit) (d : List Bool) (a : EndArticulation) (tag : Nat) :
    (s.recast b d).releaseHolder a tag = (s.releaseHolder a tag).recast b d :=
  (releaseHolder_reframe s b s.plu d a tag).trans
    (congrArg (fun x => (({ s.releaseHolder a tag with plu := x } : State).recast b d)) (s.releaseHolder_plu a tag).symm)

theorem reportCount_recast (s : State) (b : BellowsUnit) (d : List Bool) (k : Slot) :
    (s.recast b d).reportCount k = (s.reportCount k).recast b d :=
  (reportCount_reframe s b s.plu d k).trans
    (congrArg (fun x => (({ s.reportCount k with plu := x } : State).recast b d)) (s.reportCount_plu k).symm)

theorem endVictim_recast (s : State) (b : BellowsUnit) (d : List Bool) (tag : Nat) (a : EndArticulation) :
    (s.recast b d).endVictim tag a = (s.endVictim tag a).recast b d :=
  congrArg (State.removeTag · tag) (endEntry_recast s b d tag a)

theorem newEntry_recast (s : State) (b : BellowsUnit) (d : List Bool) (r : NoteRequest) (k : Slot) (pitch : Nat) :
    (s.recast b d).newEntry r k pitch = ((s.newEntry r k pitch).1, (s.newEntry r k pitch).2.recast b d) := by
  refine congrArg (Prod.mk (Answer.tag s.nrs.freeTag)) (Eq.trans ?_ (reportCount_recast _ b d k))
  rfl

theorem capacityStep_recast (s : State) (b : BellowsUnit) (d : List Bool) (r : NoteRequest) (k : Slot) (pitch : Nat) :
    (s.recast b d).capacityStep r k pitch = ((s.capacityStep r k pitch).1, (s.capacityStep r k pitch).2.recast b d) := by
  have holdest : (s.recast b d).oldest = s.oldest := rfl
  unfold capacityStep
  rw [recast_nrs, holdest]
  by_cases h : s.nrs.roster.length < 32
  · rw [if_pos h, if_pos h]
    exact newEntry_recast s b d r k pitch
  · rw [if_neg h, if_neg h]
    cases s.oldest with
    | none => rfl
    | some v =>
      dsimp only
      rw [endVictim_recast]
      by_cases hroom : (s.endVictim v.tag .stolen).nrs.roster.length < 32
      · rw [if_pos hroom, if_pos (by exact hroom)]
        exact newEntry_recast _ b d r k pitch
      · rw [if_neg hroom, if_neg (by exact hroom)]

theorem newNote_recast (s : State) (b : BellowsUnit) (d : List Bool) (r : NoteRequest) (k : Slot) (pitch : Nat) :
    (s.recast b d).newNote r k pitch = ((s.newNote r k pitch).1, (s.newNote r k pitch).2.recast b d) := by
  have holdest : (s.recast b d).oldestIn k = s.oldestIn k := rfl
  unfold newNote
  rw [recast_nrs, recast_ofu, holdest]
  by_cases h : s.nrs.count k < s.ofu.limit.get k
  · rw [if_pos h, if_pos h]
    exact capacityStep_recast s b d r k pitch
  · rw [if_neg h, if_neg h]
    by_cases h0 : s.ofu.limit.get k = 0
    · rw [if_pos h0, if_pos h0]
    · rw [if_neg h0, if_neg h0]
      cases s.oldestIn k with
      | none => exact capacityStep_recast s b d r k pitch
      | some v =>
        dsimp only
        rw [endVictim_recast]
        exact capacityStep_recast _ b d r k pitch

theorem revive_recast (s : State) (b : BellowsUnit) (d : List Bool) (r : NoteRequest) (e : RosterEntry) :
    (s.recast b d).revive r e = ((s.revive r e).1, (s.revive r e).2.recast b d) := by
  unfold revive
  rw [recast_nrs, recast_ofu]
  by_cases h : s.nrs.count e.slot < s.ofu.limit.get e.slot
  · rw [if_pos h, if_pos h]
    refine congrArg (Prod.mk _) (Eq.trans ?_ (reportCount_recast _ b d e.slot))
    by_cases hq : e.queued = .stop
    · rw [if_pos hq, if_pos hq]
      rfl
    · rw [if_neg hq, if_neg hq]
      rfl
  · rw [if_neg h, if_neg h]

theorem handleRequest_recast (s : State) (b : BellowsUnit) (d : List Bool) (r : NoteRequest) :
    (s.recast b d).handleRequest r = ((s.handleRequest r).1, (s.handleRequest r).2.recast b d) := by
  have hflight : ∀ tag, (s.recast b d).tagInFlight tag = s.tagInFlight tag := fun _ => rfl
  unfold handleRequest
  rw [recast_ofu, recast_nrs]
  cases s.ofu.resolve r with
  | none => rfl
  | some place =>
    dsimp only
    cases s.nrs.roster.find? fun e => e.slot == place.1 && e.pitch == place.2 with
    | none => exact newNote_recast s b d r place.1 place.2
    | some e =>
      dsimp only
      rw [hflight]
      by_cases hactive : e.active = true
      · rw [if_pos hactive, if_pos hactive]
        rfl
      · rw [if_neg hactive, if_neg hactive]
        by_cases hstop : e.queued = .stop ∧ s.tagInFlight e.tag = true
        · rw [if_pos hstop, if_pos hstop]
          rfl
        · rw [if_neg hstop, if_neg hstop]
          exact revive_recast s b d r e

theorem answerRequest_recast (s : State) (b : BellowsUnit) (d : List Bool) (r : NoteRequest) :
    (s.recast b d).answerRequest r = ((s.answerRequest r).1, (s.answerRequest r).2.recast b d) := by
  unfold answerRequest
  rw [handleRequest_recast]
  rcases s.handleRequest r with ⟨answer, t⟩
  cases answer <;> rfl

theorem sendRequests_recast (contact : Nat) (rs : List NoteRequest) (s : State) (b : BellowsUnit) (d : List Bool) :
    State.sendRequests contact rs (s.recast b d) =
      ((State.sendRequests contact rs s).1.recast b d, (State.sendRequests contact rs s).2) := by
  induction rs generalizing s with
  | nil => rfl
  | cons r rs ih =>
    unfold sendRequests
    rw [answerRequest_recast]
    rcases s.answerRequest r with ⟨answer, t⟩
    cases answer with
    | tag tag => exact ih (t.appendTag contact tag)
    | unplaced => exact ih t
    | waits => rfl

/-! ## Placements and fades -/

theorem placeRecord_recast (s : State) (b : BellowsUnit) (d : List Bool) (contact : Nat) :
    (s.recast b d).placeRecord contact = (s.placeRecord contact).recast b d := by
  have hrecord : (s.recast b d).record? contact = s.record? contact := rfl
  unfold placeRecord
  rw [hrecord]
  cases s.record? contact with
  | none => rfl
  | some r =>
    dsimp only
    have hsend := sendRequests_recast contact ((s.lookupRecord r).requests .placement)
      ((s.mapRecord contact fun r => { r with state := .placed, direction := s.grf.direction }).countMisses
        (s.lookupRecord r).misses) b d
    refine Eq.trans (congrArg (fun p : State × Option (List NoteRequest) => match p with
      | (s2, none) => s2
      | (s2, some rest) => s2.setPlu { s2.plu with suspended := some ⟨contact, rest, [], none⟩ }) hsend) ?_
    rcases State.sendRequests contact ((s.lookupRecord r).requests .placement) _ with ⟨t, rest⟩
    cases rest <;> rfl

theorem placeAll_recast (l : List Nat) (s : State) (b : BellowsUnit) (d : List Bool) :
    State.placeAll l (s.recast b d) = (State.placeAll l s).recast b d := by
  induction l generalizing s with
  | nil => rfl
  | cons c cs ih =>
    have hplace : ((s.recast b d).setPlu { (s.recast b d).plu with owed := cs }).placeRecord c =
        ((s.setPlu { s.plu with owed := cs }).placeRecord c).recast b d :=
      placeRecord_recast (s.setPlu { s.plu with owed := cs }) b d c
    unfold placeAll
    rw [hplace]
    generalize (s.setPlu { s.plu with owed := cs }).placeRecord c = t
    by_cases h : t.isSuspended = true
    · exact (if_pos h).trans (congrArg (State.recast · b d) (if_pos h).symm)
    · exact (if_neg h).trans ((ih t).trans (congrArg (State.recast · b d) (if_neg h).symm))

theorem foldl_recast {α : Type} {f : State → α → State} (hf : ∀ s b d x, f (s.recast b d) x = (f s x).recast b d)
    (l : List α) (s : State) (b : BellowsUnit) (d : List Bool) : l.foldl f (s.recast b d) = (l.foldl f s).recast b d := by
  induction l generalizing s with
  | nil => rfl
  | cons x l ih => rw [List.foldl_cons, List.foldl_cons, hf, ih]

theorem fadeRecord_recast (s : State) (b : BellowsUnit) (d : List Bool) (r : HeldRecord) :
    (s.recast b d).fadeRecord r = (s.fadeRecord r).recast b d := by
  unfold fadeRecord
  by_cases h : r.state = .placed
  · rw [if_pos h, if_pos h, foldl_recast fun s b d tag => releaseHolder_recast s b d .fade tag]
    rfl
  · rw [if_neg h, if_neg h]

theorem fade_recast (s : State) (b : BellowsUnit) (d : List Bool) : (s.recast b d).fade = s.fade.recast b d := by
  unfold fade
  rw [recast_plu, foldl_recast fadeRecord_recast]
  rfl

theorem takeFall_recast (s : State) (b : BellowsUnit) (d : List Bool) : (s.recast b d).takeFall = s.takeFall.recast b d := by
  rw [takeFall_eq, takeFall_eq, fade_recast]
  by_cases h : s.grf.level = 0 ∧ s.stc.station = .run ∧ ∃ r ∈ s.plu.held, r.state = .placed
  · rw [if_pos h, if_pos (by exact h)]
    by_cases hhold : s.plu.holdTime ≠ 0
    · rw [if_pos hhold, if_pos (by exact hhold)]
      rfl
    · rw [if_neg hhold, if_neg (by exact hhold)]
  · rw [if_neg h, if_neg (by exact h)]

/-! ## Reversals -/

theorem releaseUnmatched_recast (s : State) (b : BellowsUnit) (d : List Bool) (m : Matched) :
    (s.recast b d).releaseUnmatched m = (s.releaseUnmatched m).recast b d :=
  foldl_recast (fun s b d tag => releaseHolder_recast s b d .reversal tag) m.released
    (s.mapRecord m.contact fun r => { r with tags := m.kept }) b d

theorem reversalFourth_recast (s : State) (b : BellowsUnit) (d : List Bool) (contacts : List Nat) :
    (s.recast b d).reversalFourth contacts = (s.reversalFourth contacts).recast b d := by
  have hflight : (s.recast b d).bowInFlight = s.bowInFlight := rfl
  have hwithdrawn : (if s.bowInFlight then s.recast b d else (s.recast b d).withdrawBow) =
      (if s.bowInFlight then s else s.withdrawBow).recast b d := by
    cases s.bowInFlight <;> rfl
  unfold reversalFourth
  rw [hflight, hwithdrawn]
  generalize (if s.bowInFlight then s else s.withdrawBow) = t
  have hsend : ∀ (t : State) (dir : Direction) (mask : SlotMask),
      (t.recast b d).sendBow dir mask = (t.sendBow dir mask).recast b d := by
    intro t dir mask
    have hflight : (t.recast b d).bowInFlight = t.bowInFlight := rfl
    unfold sendBow
    rw [hflight]
    cases t.bowInFlight <;> rfl
  have hsent : ∀ u : State, (if (u.recast b d).bowMask contacts = 0#8 then u.recast b d
        else (u.recast b d).sendBow (u.recast b d).grf.direction ((u.recast b d).bowMask contacts)) =
      (if u.bowMask contacts = 0#8 then u else u.sendBow u.grf.direction (u.bowMask contacts)).recast b d := by
    intro u
    have hmask : (u.recast b d).bowMask contacts = u.bowMask contacts := rfl
    rw [hmask]
    by_cases h : u.bowMask contacts = 0#8
    · rw [if_pos h, if_pos h]
    · rw [if_neg h, if_neg h, hsend]
      rfl
  exact hsent (t.setPlu { t.plu with owedBow := none })

theorem reversalThird_recast (contacts : List Nat) (l : List (Nat × List NoteRequest)) (s : State) (b : BellowsUnit) (d : List Bool) :
    State.reversalThird contacts l (s.recast b d) = (State.reversalThird contacts l s).recast b d := by
  induction l generalizing s with
  | nil => exact reversalFourth_recast s b d contacts
  | cons p later ih =>
    unfold reversalThird
    rw [sendRequests_recast]
    rcases State.sendRequests p.1 p.2 s with ⟨t, rest⟩
    cases rest with
    | none => exact ih t
    | some rest => rfl

theorem reversal_recast (s : State) (b : BellowsUnit) (d : List Bool) : (s.recast b d).reversal = s.reversal.recast b d := by
  have hfound : (s.recast b d).reversedRecords.map (s.recast b d).reversalLookup = s.reversedRecords.map s.reversalLookup := rfl
  unfold reversal
  rw [hfound]
  generalize s.reversedRecords.map s.reversalLookup = found
  have hfirst : (s.recast b d).reversalFirst found = (s.reversalFirst found).recast b d := rfl
  dsimp only
  rw [hfirst, recast_nrs, foldl_recast releaseUnmatched_recast, reversalThird_recast]

/-! ## Group changes -/

theorem levelRise_recast (s : State) (b : BellowsUnit) (d : List Bool) : (s.recast b d).levelRise = s.levelRise.recast b d := by
  rw [levelRise_eq, levelRise_eq]
  by_cases hrun : s.stc.station = .run
  · by_cases h : s.plu.suspended.isSome = true
    · simp only [recast_stc, recast_plu, hrun, h, if_true]
      rfl
    · simp only [recast_stc, recast_plu, hrun, h, if_true, if_false, Bool.false_eq_true]
      rw [← placeAll_recast]
      rfl
  · simp only [recast_stc, recast_plu, hrun, if_false]
    rfl

theorem groupChange_recast (s : State) (b : BellowsUnit) (d : List Bool) (turned rose fell : Bool) :
    (s.recast b d).groupChange turned rose fell = (s.groupChange turned rose fell).recast b d := by
  have hevent : ∀ (t : State) (e : PlacementEvent), (t.recast b d).takeEvent e = (t.takeEvent e).recast b d →
      (t.recast b d).placementEvent e = (t.placementEvent e).recast b d := by
    intro t e he
    have hplaying : (t.recast b d).playing = t.playing := rfl
    have hsuspended : (t.recast b d).isSuspended = t.isSuspended := rfl
    unfold placementEvent
    rw [hplaying, hsuspended, he]
    cases t.playing <;> cases t.isSuspended <;> rfl
  have hplaying : (s.recast b d).playing = s.playing := rfl
  unfold groupChange
  rw [hplaying]
  cases s.playing with
  | false => rfl
  | true =>
    simp only [if_true]
    have hrise : (if rose then (s.recast b d).levelRise else s.recast b d) = (if rose then s.levelRise else s).recast b d := by
      cases rose
      · rfl
      · exact levelRise_recast s b d
    rw [hrise]
    generalize (if rose then s.levelRise else s) = t
    have hturn : (if turned then (t.recast b d).placementEvent .turn else t.recast b d) =
        (if turned then t.placementEvent .turn else t).recast b d := by
      cases turned
      · rfl
      · exact hevent t .turn (reversal_recast t b d)
    rw [hturn]
    generalize (if turned then t.placementEvent .turn else t) = u
    cases fell
    · rfl
    · exact hevent u .fall (takeFall_recast u b d)

theorem recomputeLevels_recast (s : State) (b : BellowsUnit) (d : List Bool) : (s.recast b d).recomputeLevels = s.recomputeLevels.recast b d := by
  have hexamine : ∀ (s : State) (b : BellowsUnit) (d : List Bool) (k : Slot), (s.recast b d).examineLevel k = (s.examineLevel k).recast b d := by
    intro s b d k
    unfold examineLevel
    rw [recast_lvu]
    by_cases h : 0 < s.lvu.slotCount.get k ∧ s.lvu.due k = true
    · rw [if_pos h, if_pos h, writeLevel_eq, writeLevel_eq]
      rfl
    · rw [if_neg h, if_neg h]
  unfold recomputeLevels
  rw [← foldl_recast hexamine]
  rfl

theorem regrouped_recast (s : State) (b : BellowsUnit) (d : List Bool) (dir : Direction) (level : Nat) :
    (s.recast b d).regrouped dir level = (s.regrouped dir level).recast b d := by
  rw [regrouped_eq, regrouped_eq, recast_grf]
  by_cases h : level = s.grf.level
  · rw [if_pos h, if_pos h]
    rfl
  · rw [if_neg h, if_neg h, ← recomputeLevels_recast]
    rfl

theorem setGroup_recast (s : State) (b : BellowsUnit) (d : List Bool) (dir : Direction) (level : Nat) :
    (s.recast b d).setGroup dir level = (s.setGroup dir level).recast b d := by
  rw [setGroup_eq, setGroup_eq, recast_grf, regrouped_recast, groupChange_recast]

/-- A group change is the same whatever the Bellows Unit holds, and leaves it (R111). -/
theorem setGroup_setBlw (s : State) (b : BellowsUnit) (dir : Direction) (level : Nat) :
    (s.setBlw b).setGroup dir level = (s.setGroup dir level).setBlw b := by
  have hdriven : (s.setGroup dir level).lkc.driven = s.lkc.driven := by
    have h := setGroup_notesOnly s dir level
    unfold NotesOnly at h
    rw [h]
  refine (setGroup_recast s b s.lkc.driven dir level).trans ?_
  rw [← hdriven]
  rfl

end State

end Sys2Proof.Machine
end

section
/-! PROOFS. A sample in MEASURING, and what the reversal it may bring does (sections 3.5 and 7.5). -/

namespace Sys2Proof.Machine

/-! ## The chain -/

theorem clampInt_eq (lo hi x : Int) (h : lo ≤ hi) : clampInt lo hi x = max lo (min hi x) := by
  unfold clampInt
  split
  · omega
  · split <;> omega

theorem directionAfter_eq (c : BellowsSettings) (d : Direction) (p : Int) : directionAfter c d p =
    if d = .push ∧ p < -(c.deadBand + c.hysteresis : Int) then .pull
    else if d = .pull ∧ p > (c.deadBand + c.hysteresis : Int) then .push
    else d := by
  cases d <;> simp [directionAfter]

theorem smoothingStep_eq (k : Nat) (d : Int) : smoothingStep k d =
    if roundAway d (2 ^ k) = 0 ∧ 0 < d then 1 else if roundAway d (2 ^ k) = 0 ∧ d < 0 then -1
    else roundAway d (2 ^ k) := by
  unfold smoothingStep
  dsimp only
  by_cases hq : roundAway d (2 ^ k) = 0
  · rcases Int.lt_trichotomy d 0 with hd | hd | hd
    · simp [hq, hd, show ¬0 < d by omega, hd.ne]
    · simp [hd]
    · simp [hq, hd, hd.ne']
  · simp [hq]

/-- The unit after a sample that goes through the chain, the sensor answering (R38, R42 to R45). -/
theorem BellowsUnit.chain_eq (b : BellowsUnit) (count : Int) : b.chain count =
    (let p := max (-2047) (min 2047 ((count - b.zero) / 2 ^ b.settings.shift))
     let d := magnitudeOf b.settings p - b.magnitude
     let q := roundAway d (2 ^ b.settings.smoothing)
     let e := b.magnitude + (if q = 0 ∧ 0 < d then 1 else if q = 0 ∧ d < 0 then -1 else q)
     { b with
      direction :=
        if b.direction = .push ∧ p < -(b.settings.deadBand + b.settings.hysteresis : Int) then .pull
        else if b.direction = .pull ∧ p > (b.settings.deadBand + b.settings.hysteresis : Int) then .push
        else b.direction
      magnitude := e
      level := levelOf b.settings e }) := by
  unfold BellowsUnit.chain magnitudeAfter pressureOf
  dsimp only
  rw [clampInt_eq _ _ _ (by omega), directionAfter_eq, smoothingStep_eq]

/-- The unit hands its values on to the group of a LOCAL station and then writes the BELLOWS entry: both leave a state that
differs from the group change, taken with the unit as it ends, in that entry and the attempt in flight. -/
theorem State.handed_local {s : State} (hlocal : s.grf.sourceMode = .localUnit) (b : BellowsUnit) :
    s.handBellows.writeBellowsAfter b =
      (let t := s.handBellows.writeBellowsAfter b
       let u := (s.setBlw t.blw).setGroup s.blw.direction s.blw.level
       { u with lkc := { u.lkc with updates := { u.lkc.updates with bellows := t.lkc.updates.bellows }, tx := t.lkc.tx } }) := by
  have hhand : s.handBellows = s.setGroup s.blw.direction s.blw.level := by rw [State.handBellows_eq, if_pos hlocal]
  dsimp only
  rw [State.setGroup_setBlw, hhand, State.writeBellowsAfter_eq]
  split <;> rfl

/-- What a sample in MEASURING leaves, of the unit after the chain (R38, R42 to R46). -/
theorem State.measuring_sample {s : State} {count : BitVec 16} (hup : s.resetLow = false)
    (hphase : s.blw.phase = .measuring) (houtstanding : s.blw.outstanding = true) :
    exec (.sensorSample count false) s =
      .next ((s.sampled.setBlw (s.sampled.blw.chain count.toInt)).handBellows.writeBellowsAfter s.blw) := by
  refine (exec_of_up hup _).trans (congrArg _ ((State.sensorAnswer_of_taken (by simp [hphase]) houtstanding).trans ?_))
  rw [State.takeSample_eq, hphase]

theorem measuring_sample_chain (s : State) (count : BitVec 16) (hup : s.resetLow = false)
    (hphase : s.blw.phase = .measuring) (houtstanding : s.blw.outstanding = true) :
    let c := s.blw.settings
    let p : Int := max (-2047) (min 2047 ((count.toInt - s.blw.zero) / 2 ^ c.shift))
    let margin : Int := c.deadBand + c.hysteresis
    let direction : Direction :=
      if s.blw.direction = .push ∧ p < -margin then .pull
      else if s.blw.direction = .pull ∧ p > margin then .push
      else s.blw.direction
    let m : Int := if p.natAbs > c.deadBand then p.natAbs - c.deadBand else 0
    let d := m - s.blw.magnitude
    let q := roundAway d (2 ^ c.smoothing)
    let e := s.blw.magnitude + (if q = 0 ∧ 0 < d then 1 else if q = 0 ∧ d < 0 then -1 else q)
    let level := levelOf c e
    let changed := s.blw.level ≠ level ∨ s.blw.direction ≠ direction ∨ s.blw.sensorLost = true
    ∃ t, exec (.sensorSample count false) s = .next t ∧
      t.blw = { s.blw with
        direction := direction
        magnitude := e
        level := level
        sensorLost := false
        missed := 0
        outstanding := false
        heartbeat := t.blw.heartbeat } ∧
      (s.stc.station = .run → changed → t.blw.heartbeat = some (ms 20) ∧
        t.lkc.updates.bellows = some ⟨.bellows s.grf.ownGroup direction level false, 0⟩) ∧
      (s.stc.station ≠ .run ∨ ¬changed →
        t.blw.heartbeat = s.blw.heartbeat ∧ t.lkc.updates.bellows = s.lkc.updates.bellows) ∧
      t.stc.trouble = (if s.blw.sensorLost = true then { s.stc.trouble with sensorLost := false } else s.stc.trouble) ∧
      (s.grf.sourceMode = .localUnit → t.grf.direction = direction ∧ t.grf.level = level ∧
        let u := ({ s with stc := { s.stc with trouble := t.stc.trouble }, blw := t.blw } : State).setGroup direction
          level
        t = { u with lkc := { u.lkc with
          updates := { u.lkc.updates with bellows := t.lkc.updates.bellows }
          tx := t.lkc.tx } }) ∧
      (s.grf.sourceMode = .follow → t.grf = s.grf) ∧
      State.NotesOnly { s with
        stc := { s.stc with trouble := t.stc.trouble }
        blw := t.blw
        grf := { s.grf with direction := t.grf.direction, level := t.grf.level } } t := by
  intro c p margin direction m d q e level changed
  have hexec := State.measuring_sample (count := count) hup hphase houtstanding
  rw [BellowsUnit.chain_eq, s.sampled_eq] at hexec
  have hw : ∃ w : State, w = { s with
      stc := { s.stc with trouble :=
        if s.blw.sensorLost = true then { s.stc.trouble with sensorLost := false } else s.stc.trouble }
      blw := { s.blw with
        direction := direction
        magnitude := e
        level := level
        sensorLost := false
        missed := 0
        outstanding := false } } ∧ exec (.sensorSample count false) s = .next (w.handBellows.writeBellowsAfter s.blw) :=
    ⟨_, rfl, hexec⟩
  clear hexec
  obtain ⟨w, hw, hexec⟩ := hw
  clear_value direction e level
  have hon := w.handedOn s.blw
  have hlocal := fun h => State.handed_local (s := w) h s.blw
  generalize w.handBellows.writeBellowsAfter s.blw = t at hexec hon hlocal
  have hsame := hon.grf_keeps
  obtain ⟨hblw, htrouble, hgrf, hwritten, hunwritten, hnotes⟩ := hon
  have hchange : (s.blw.phase ≠ .measuring ∨ s.blw.level ≠ level ∨ s.blw.direction ≠ direction ∨
      s.blw.sensorLost ≠ false) ↔ changed := by simp [changed, hphase]
  subst hw
  dsimp only at hblw htrouble hgrf hwritten hunwritten hnotes hlocal hsame
  rw [hchange] at hwritten hunwritten
  refine ⟨t, hexec, hblw, fun hrun hch => hwritten hrun hphase hch, fun h => hunwritten ?_, htrouble, fun h => ?_,
    fun h => ?_, ?_⟩
  · rintro ⟨hrun, -, hch⟩
    rcases h with h | h
    · exact h hrun
    · exact h hch
  · rw [hgrf, if_pos h, htrouble]
    exact ⟨rfl, rfl, hlocal h⟩
  · rw [hgrf, if_neg (by simp [h])]
  · rw [htrouble, ← hsame]
    exact hnotes

/-! ## The reversal -/

theorem reversal_explicit (s : State) :
    let found := s.plu.held.filter fun r => r.state = .placed ∧ r.direction ≠ s.grf.direction
    let look := fun r : HeldRecord => s.mst.lookup r.ordinal r.pair s.grf.direction s.grf.registration
    let contacts := found.map (·.contact)
    let u : State := { s with
      stc := { s.stc with counters := { s.stc.counters with
        mapMisses := min (s.stc.counters.mapMisses + (found.map fun r => (look r).misses).sum) 65535 } }
      plu := { s.plu with held := s.plu.held.map fun r =>
        if r.contact ∈ contacts then { r with direction := s.grf.direction } else r }
      nrs := { s.nrs with roster := s.nrs.roster.map fun e =>
        { e with soundingAtTurn := e.state = .sounding } } }
    let requests := fun r : HeldRecord => (look r).items.map fun i : NoteItem =>
      (⟨i.pitch + i.interval + (look r).transposition, i.slot, i.articulation, i.staccatoMs, i.levelOffset,
        .reversal⟩ : NoteRequest)
    let matched := found.map fun r =>
      (Reversed.mk r.contact r.tags ((requests r).map fun q => (q, s.ofu.resolve q)) (look r).misses).matched u.nrs
    let v := matched.foldl (fun (t : State) m => m.released.foldl (fun x tag => x.releaseHolder .reversal tag)
      { t with plu := { t.plu with held := t.plu.held.map fun r =>
        if r.contact = m.contact then { r with tags := m.kept } else r } }) u
    s.reversal = State.reversalThird contacts (matched.map fun m => (m.contact, m.unmatched)) v := by
  intro found look contacts u requests matched v
  have hfound : s.reversedRecords = found := by
    refine List.filter_congr fun r _ => Bool.eq_iff_iff.2 ?_
    simp
  have hcontacts : (found.map s.reversalLookup).map (·.contact) = contacts := by
    rw [List.map_map]
    rfl
  have hfirst : s.reversalFirst (found.map s.reversalLookup) = u := by
    unfold State.reversalFirst
    dsimp only
    rw [hcontacts, List.map_map, State.countMisses_eq]
    have hsum : (found.map (Reversed.misses ∘ s.reversalLookup)) = found.map fun r => (look r).misses := rfl
    have hsounding : (s.nrs.roster.map fun e => { e with soundingAtTurn := e.state == NoteState.sounding }) =
        s.nrs.roster.map fun e => { e with soundingAtTurn := e.state = NoteState.sounding } := by
      refine List.map_congr_left fun e _ => ?_
      rw [beq_eq_decide]
    have hheld : (s.plu.held.map fun r => if contacts.contains r.contact = true then { r with direction := s.grf.direction }
        else r) = s.plu.held.map fun r => if r.contact ∈ contacts then { r with direction := s.grf.direction } else r := by
      simp only [List.contains_iff_mem]
    rw [hsum]
    refine (congrArg₂ (fun roster held => ({ s with
      stc := { s.stc with counters := { s.stc.counters with
        mapMisses := min (s.stc.counters.mapMisses + (found.map fun r => (look r).misses).sum) 65535 } }
      plu := { s.plu with held := held }
      nrs := { s.nrs with roster := roster } } : State)) hsounding hheld)
  have hmatched : (found.map s.reversalLookup).map (Reversed.matched u.nrs) = matched := by
    rw [List.map_map]
    rfl
  unfold State.reversal
  dsimp only
  rw [hfound, hcontacts, hfirst, hmatched]
  rfl

/-! ## Releases and victims -/

theorem State.releaseHolder_of_active {s : State} {tag : Nat} {e : RosterEntry} (he : s.entry? tag = some e)
    (hactive : e.state ≠ .ending) (art : EndArticulation) : s.releaseHolder art tag =
      (let u : State := { s with nrs := { s.nrs with roster := s.nrs.roster.map fun x =>
        if x.tag = tag then { x with holders := x.holders - 1 } else x } }
       if e.holders ≤ 1 then u.endEntry tag art else u) := by
  unfold State.releaseHolder
  rw [he]
  exact if_pos (by simpa [RosterEntry.active] using hactive)

theorem State.releaseHolder_of_ending {s : State} {tag : Nat} (h : ∀ e, s.entry? tag = some e → e.state = .ending)
    (art : EndArticulation) : s.releaseHolder art tag = s := by
  unfold State.releaseHolder
  cases he : s.entry? tag with
  | none => rfl
  | some e => exact if_neg (by simp [RosterEntry.active, h e he])

/-! ## The fourth stage -/

theorem State.bowMask_has (s : State) (contacts : List Nat) (k : Slot) :
    SlotMask.has (s.bowMask contacts) k = true ↔ ∃ e ∈ s.nrs.roster, e.slot = k ∧ e.soundingAtTurn = true ∧
      e.state = .sounding ∧ ∃ r ∈ s.plu.held, r.contact ∈ contacts ∧ e.tag ∈ r.tags := by
  unfold State.bowMask
  rw [maskOf_has]
  simp [List.any_eq_true, and_assoc]

theorem State.reversalFourth_of_free {s : State} (h : s.bowInFlight = false) (contacts : List Nat) :
    s.reversalFourth contacts = { s with
      plu := { s.plu with owedBow := none }
      lkc := { s.lkc with noteQueue := s.lkc.noteQueue.filter (!·.frame.isBow) ++
        (if s.bowMask contacts = 0#8 then [] else [⟨.bow s.grf.direction (s.bowMask contacts), 0⟩]) } } := by
  have hfree : (s.withdrawBow.setPlu { s.withdrawBow.plu with owedBow := none }).bowInFlight = false := by
    unfold State.bowInFlight
    change (_ && match s.lkc.noteQueue.filter (!·.frame.isBow) with
      | q :: _ => q.frame.isBow
      | [] => false) = false
    cases hqueue : s.lkc.noteQueue.filter (!·.frame.isBow) with
    | nil => exact Bool.and_false _
    | cons q l =>
      have hq := (List.mem_filter.1 (hqueue ▸ List.mem_cons_self : q ∈ s.lkc.noteQueue.filter (!·.frame.isBow))).2
      rw [Bool.not_eq_true'] at hq
      dsimp only
      rw [hq, Bool.and_false]
  have hmask : (s.withdrawBow.setPlu { s.withdrawBow.plu with owedBow := none }).bowMask contacts = s.bowMask contacts := rfl
  unfold State.reversalFourth
  have hwithdrawn : (if s.bowInFlight then s else s.withdrawBow) = s.withdrawBow := if_neg (by simp [h])
  rw [hwithdrawn]
  dsimp only at hfree hmask ⊢
  rw [hmask]
  by_cases hm : s.bowMask contacts = 0#8
  · rw [if_pos hm, if_pos hm, List.append_nil]
    rfl
  · rw [if_neg hm, if_neg hm]
    unfold State.sendBow
    rw [hfree]
    rfl

theorem State.reversalFourth_of_flying {s : State} (h : s.bowInFlight = true) (contacts : List Nat) :
    s.reversalFourth contacts = { s with plu := { s.plu with
      owedBow := if s.bowMask contacts = 0#8 then none else some (s.grf.direction, s.bowMask contacts) } } := by
  have hmask : (s.setPlu { s.plu with owedBow := none }).bowMask contacts = s.bowMask contacts := rfl
  have hflying : (s.setPlu { s.plu with owedBow := none }).bowInFlight = true := h
  unfold State.reversalFourth
  rw [if_pos h]
  dsimp only
  rw [hmask]
  by_cases hm : s.bowMask contacts = 0#8
  · rw [if_pos hm, if_pos hm]
    rfl
  · rw [if_neg hm, if_neg hm]
    unfold State.sendBow
    rw [hflying]
    rfl

/-- Settles O28. -/
theorem measuringSampleGoesThroughTheChain : Obligations.MeasuringSampleGoesThroughTheChain := by
  refine ⟨measuring_sample_chain, matched_spec, reversal_explicit, fun s tag art => ⟨fun e he hactive => ?_, fun h => ?_, ?_⟩,
    fun s contacts => ⟨rfl, fun c rs later => rfl⟩,
    fun s contacts => ⟨s.bowMask contacts, s.bowMask_has contacts, fun h => ?_, fun h => ?_⟩⟩
  · exact State.releaseHolder_of_active he hactive art
  · exact State.releaseHolder_of_ending h art
  · refine congrArg (fun x => ({ s.endEntry tag art with plu := x } : State)) (Eq.trans (s.endVictim_plu tag art) ?_)
    have hother : ∀ l : List Nat, l.filter (· != tag) = l.filter (· ≠ tag) := fun l =>
      List.filter_congr fun x _ => Bool.eq_iff_iff.2 (by simp)
    simp only [hother]
  · exact State.reversalFourth_of_free h contacts
  · exact State.reversalFourth_of_flying h contacts

end Sys2Proof.Machine
end

section
/-! PROOFS. The arbiter's choice, and what the bits read tell of an attempt's end (sections 10.3 and 10.7). -/

namespace Sys2Proof.Machine

/-! ## The choice -/

namespace LinkController

theorem choice_of_bellows {l : LinkController} {e : TableEntry} (h : l.updates.bellows = some e) :
    l.choice = some ⟨.table .bellows, e.frame, e.failures, false, false⟩ := by
  have hattempt : l.updates.attempt .bellows = some ⟨.table .bellows, e.frame, e.failures, false, false⟩ :=
    congrArg (Option.map _) h
  unfold choice
  rw [hattempt]

theorem choice_of_noteQueue {l : LinkController} (h : l.updates.bellows = none) {q : QueueItem} {rest : List QueueItem}
    (hq : l.noteQueue = q :: rest) : l.choice = some ⟨.queueHead, .note q.frame, q.failures, false, false⟩ := by
  have hattempt : l.updates.attempt .bellows = none := congrArg (Option.map _) h
  unfold choice
  rw [hattempt, hq]
  rfl

/-- Behind the BELLOWS entry and the note queue the other entries follow in their order (R156). -/
theorem choice_of_others {l : LinkController} (h : l.updates.bellows = none) (hq : l.noteQueue = []) : l.choice =
    ((l.updates.attempt .registration).or
      ((slots.findSome? fun k => l.updates.attempt (.level k)).or
        ((l.updates.attempt .status).or (l.updates.attempt .presence)))) := by
  have hattempt : l.updates.attempt .bellows = none := congrArg (Option.map _) h
  unfold choice
  rw [hattempt, hq]
  have hlast : ([.status, .presence] : List TableKey).findSome? l.updates.attempt =
      (l.updates.attempt .status).or (l.updates.attempt .presence) := by
    cases h : l.updates.attempt .status <;> simp [h]
  have hlevels : (slots.map TableKey.level).findSome? l.updates.attempt =
      slots.findSome? fun k => l.updates.attempt (.level k) := List.findSome?_map
  have hrest : (slots.map TableKey.level ++ [TableKey.status, .presence]).findSome? l.updates.attempt =
      (slots.findSome? fun k => l.updates.attempt (.level k)).or
        ((l.updates.attempt .status).or (l.updates.attempt .presence)) := by
    rw [List.findSome?_append, hlevels, hlast]
  change (TableKey.registration :: (slots.map TableKey.level ++ [TableKey.status, .presence])).findSome? l.updates.attempt = _
  rw [List.findSome?_cons, hrest]
  cases l.updates.attempt .registration <;> rfl

end LinkController

/-- The lowest slot whose LEVEL entry is present. -/
theorem findSome?_slots_of_least {α : Type} {f : Slot → Option α} {k : Slot} {a : α} (hk : f k = some a)
    (hleast : ∀ j < k, f j = none) : slots.findSome? f = some a := by
  obtain ⟨l₁, l₂, hsplit⟩ := List.append_of_mem (mem_slots k)
  have hsorted : slots.Pairwise (· < ·) := by decide
  rw [hsplit] at hsorted
  have hbefore : ∀ j ∈ l₁, f j = none := fun j hj =>
    hleast j ((List.pairwise_append.1 hsorted).2.2 j hj k List.mem_cons_self)
  rw [hsplit, List.findSome?_append, List.findSome?_eq_none_iff.2 hbefore, List.findSome?_cons, hk]
  rfl

/-! ## The end of an attempt -/

theorem resultFrom_success_iff (i : Nat) (sent read : List Bool) :
    resultFrom i sent read = some .success ↔ read.take sent.length = sent := by
  induction sent generalizing i read with
  | nil => simp [resultFrom]
  | cons b sent ih =>
    cases read with
    | nil => simp [resultFrom]
    | cons c read =>
      by_cases hbc : b = c
      · subst hbc
        simpa [resultFrom] using ih (i + 1) read
      · have hmiss : resultFrom i (b :: sent) (c :: read) ≠ some .success := by
          unfold resultFrom
          rw [if_neg hbc]
          split <;> simp
        simp [hmiss, Ne.symm hbc]

theorem resultFrom_none_iff (i : Nat) (sent read : List Bool) :
    resultFrom i sent read = none ↔ read.length < sent.length ∧ sent.take read.length = read := by
  induction sent generalizing i read with
  | nil => simp [resultFrom]
  | cons b sent ih =>
    cases read with
    | nil => simp [resultFrom]
    | cons c read =>
      by_cases hbc : b = c
      · subst hbc
        simpa [resultFrom] using ih (i + 1) read
      · have hmiss : resultFrom i (b :: sent) (c :: read) ≠ none := by
          unfold resultFrom
          rw [if_neg hbc]
          split <;> simp
        simp [hmiss, hbc]

/-- The first bit that reads otherwise than sent decides the end (R156). -/
theorem attemptResult_of_mismatch {sent read : List Bool} {i : Nat} (hs : i < sent.length) (hr : i < read.length)
    (hsame : sent.take i = read.take i) (hother : sent[i]? ≠ read[i]?) : attemptResult sent read =
      some (if 9 ≤ i ∧ i < 19 ∧ sent[i]? = some true then .lostArbitration else .failure) := by
  have hsplit : ∀ {l : List Bool} (h : i < l.length), l = l.take i ++ l[i] :: l.drop (i + 1) := fun h => by
    rw [List.cons_getElem_drop_succ, List.take_append_drop]
  have hflip : read[i] = !sent[i] := by
    rw [List.getElem?_eq_getElem hs, List.getElem?_eq_getElem hr] at hother
    rw [ne_eq, Option.some_inj] at hother
    exact (Bool.eq_not_of_ne (Ne.symm hother))
  have hlength : (sent.take i).length = i := List.length_take_of_le hs.le
  have hresult := resultFrom_mismatch (sent.take i) sent[i] (sent.drop (i + 1)) (read.drop (i + 1)) 0
  rw [← hsplit hs, ← hflip, hsame, ← hsplit hr, ← hsame, hlength, Nat.zero_add] at hresult
  unfold attemptResult
  rw [hresult, List.getElem?_eq_getElem hs]
  congr 2
  simp [inArbitration, and_comm, and_assoc]

/-- Settles O35. -/
theorem arbiterChoosesTheFirstPresent : Obligations.ArbiterChoosesTheFirstPresent := by
  refine ⟨fun s hup => ⟨fun hworking hlistening hrate htx => ?_, fun h => ?_, fun h htx => ?_, fun read h => ?_⟩,
    fun sent read => ⟨resultFrom_success_iff 0 sent read, resultFrom_none_iff 0 sent read,
      fun i hs hr hsame hother => attemptResult_of_mismatch hs hr hsame hother⟩⟩
  · have hmay : s.mayTransmit = true := State.mayTransmit_iff.2 ⟨hworking, hlistening, hrate⟩
    have hidle : s.idle = { s with
        lvu := { s.lvu with justRestarted := if s.lkc.choice.isSome = true then .all false else s.lvu.justRestarted }
        lkc := { s.lkc with tx := s.lkc.choice, driven := drivenBits s.stl.ownAddress s.lkc.choice } } := by
      rcases s.idle_cases with ⟨h, -⟩ | ⟨a, -, -, hchoice, h⟩ | ⟨-, hchoice, h⟩
      · simp [htx] at h
      · rw [h, hchoice]
        rfl
      · rw [h, hchoice hmay]
        rfl
    have hexec : exec .idleMoment s = .next s.idle := exec_of_up hup _
    rw [hidle] at hexec
    refine ⟨_, hexec, rfl, ?_, fun e he => LinkController.choice_of_bellows he,
      fun hb q rest hq => LinkController.choice_of_noteQueue hb hq, fun hb hq => ?_⟩
    · dsimp only
      cases s.lkc.choice <;> rfl
    have hothers := LinkController.choice_of_others hb hq
    dsimp only at hothers ⊢
    have hpresent : ∀ {key e}, s.lkc.updates.get key = some e →
        s.lkc.updates.attempt key = some ⟨.table key, e.frame, e.failures, false, false⟩ :=
      fun h => congrArg (Option.map _) h
    have habsent : ∀ {key}, s.lkc.updates.get key = none → s.lkc.updates.attempt key = none :=
      fun h => congrArg (Option.map _) h
    refine ⟨fun e he => ?_, fun hr => ⟨fun k e he hleast => ?_, fun hl => ?_⟩⟩
    · rw [hothers, hpresent (key := .registration) he]
      rfl
    · rw [hothers, habsent (key := .registration) hr,
        findSome?_slots_of_least (hpresent (key := .level k) he) fun j hj => habsent (key := .level j) (hleast j hj)]
      rfl
    · have hnone : (slots.findSome? fun k => s.lkc.updates.attempt (.level k)) = none :=
        List.findSome?_eq_none_iff.2 fun k _ => habsent (key := .level k) (hl k)
      rw [habsent (key := .registration) hr, hnone] at hothers
      refine ⟨fun e he => ?_, fun hst => ⟨fun e he => ?_, fun hp => ?_⟩⟩
      · rw [hothers, hpresent (key := .status) he]
        rfl
      · rw [hothers, habsent (key := .status) hst, hpresent (key := .presence) he]
        rfl
      · rw [hothers, habsent (key := .status) hst, habsent (key := .presence) hp]
        rfl
  · exact (exec_of_up hup _).trans (congrArg _ (if_pos h))
  · have hmay : s.mayTransmit = false := by
      rw [← Bool.not_eq_true, State.mayTransmit_iff]
      rintro ⟨hworking, hlistening, hrate⟩
      rcases h with h | h | h
      · rw [h] at hworking
        cases hworking
      · rw [h] at hlistening
        cases hlistening
      · rw [h] at hrate
        cases hrate
    have hidle : s.idle = { s with lkc := { s.lkc with driven := [] } } := by
      rcases s.idle_cases with ⟨h, -⟩ | ⟨a, -, h, -⟩ | ⟨-, -, h⟩
      · simp [htx] at h
      · rw [hmay] at h
        cases h
      · rw [h, ← htx]
        rfl
    exact (exec_of_up hup _).trans (congrArg _ hidle)
  · refine (exec_of_up hup _).trans (congrArg _ ?_)
    change s.attemptEnd read = s
    unfold State.attemptEnd
    rcases h with h | h
    · cases attemptResult s.lkc.driven read with
      | none => rfl
      | some r =>
        dsimp only
        unfold State.endAttempt
        rw [h]
    · rw [h]

end Sys2Proof.Machine
end

section
/-! PROOFS. The events of the Placement Unit and the answers to a waiting request look at nothing of the Bellows Unit, nor at
the bits driven last. -/

namespace Sys2Proof.Machine

namespace State

theorem takePress_recast (s : State) (b : BellowsUnit) (d : List Bool) (c n : Nat) (kind : ButtonKind) (shiftHeld : Bool) :
    (s.recast b d).takePress c n kind shiftHeld = (s.takePress c n kind shiftHeld).recast b d := by
  unfold takePress
  rw [recast_plu, recast_stc, recast_grf]
  by_cases hheld : s.plu.held.any (·.contact == c) = true
  · rw [if_pos hheld, if_pos hheld]
  · rw [if_neg hheld, if_neg hheld]
    by_cases hfull : 24 ≤ s.plu.held.length
    · rw [if_pos hfull, if_pos hfull]
      rfl
    · rw [if_neg hfull, if_neg hfull]
      by_cases hrun : s.stc.station = .run
      · by_cases hlevel : s.grf.level = 0
        · simp only [hrun, hlevel, if_true]
          rfl
        · simp only [hrun, hlevel, if_true, if_false]
          exact placeRecord_recast (s.appendRecord c n (pairOf kind shiftHeld) .placed) b d c
      · simp only [hrun, if_false]
        rfl

theorem takeRelease_recast (s : State) (b : BellowsUnit) (d : List Bool) (c : Nat) :
    (s.recast b d).takeRelease c = (s.takeRelease c).recast b d := by
  have hrecord : (s.recast b d).record? c = s.record? c := rfl
  unfold takeRelease
  rw [hrecord]
  cases s.record? c with
  | none => rfl
  | some r =>
    dsimp only
    rw [foldl_recast fun s b d tag => releaseHolder_recast s b d .normal tag]
    rfl

theorem takeEvent_recast (s : State) (b : BellowsUnit) (d : List Bool) (e : PlacementEvent) :
    (s.recast b d).takeEvent e = (s.takeEvent e).recast b d := by
  cases e with
  | press c n kind shiftHeld => exact takePress_recast s b d c n kind shiftHeld
  | release c => exact takeRelease_recast s b d c
  | turn => exact reversal_recast s b d
  | fall => exact takeFall_recast s b d
  | breathExpiry => exact fade_recast s b d

theorem takeHeld_recast (es : List PlacementEvent) (s : State) (b : BellowsUnit) (d : List Bool) :
    State.takeHeld es (s.recast b d) = (State.takeHeld es s).recast b d := by
  induction es generalizing s with
  | nil => rfl
  | cons e es ih =>
    have htake : ((s.recast b d).setPlu { (s.recast b d).plu with heldEvents := es }).takeEvent e =
        ((s.setPlu { s.plu with heldEvents := es }).takeEvent e).recast b d :=
      takeEvent_recast (s.setPlu { s.plu with heldEvents := es }) b d e
    unfold takeHeld
    rw [htake]
    generalize (s.setPlu { s.plu with heldEvents := es }).takeEvent e = t
    by_cases h : t.isSuspended = true
    · exact (if_pos h).trans (congrArg (State.recast · b d) (if_pos h).symm)
    · exact (if_neg h).trans ((ih t).trans (congrArg (State.recast · b d) (if_neg h).symm))

theorem afterOperation_recast (s : State) (b : BellowsUnit) (d : List Bool) :
    (s.recast b d).afterOperation = s.afterOperation.recast b d := by
  have hsuspended : ∀ t : State, (t.recast b d).isSuspended = t.isSuspended := fun _ => rfl
  unfold afterOperation
  rw [hsuspended, recast_plu, placeAll_recast]
  cases s.isSuspended with
  | true => rfl
  | false =>
    dsimp only
    rw [if_neg Bool.false_ne_true, if_neg Bool.false_ne_true]
    generalize State.placeAll s.plu.owed s = t
    rw [hsuspended, recast_plu, takeHeld_recast]
    cases t.isSuspended <;> rfl

theorem continueOperation_recast (s : State) (b : BellowsUnit) (d : List Bool) (op : Operation) :
    (s.recast b d).continueOperation op = (s.continueOperation op).recast b d := by
  unfold continueOperation
  rw [sendRequests_recast]
  rcases State.sendRequests op.record op.requests s with ⟨t, rest⟩
  cases rest with
  | some rest => rfl
  | none =>
    dsimp only
    cases op.reversal with
    | none => rfl
    | some contacts => exact reversalThird_recast contacts op.later t b d

theorem answered_recast (s : State) (b : BellowsUnit) (d : List Bool) (op : Operation) (tag : Option Nat) :
    (s.recast b d).answered op tag = (s.answered op tag).recast b d := by
  have hgo : ∀ t : State, ((t.recast b d).continueOperation op).afterOperation =
      ((t.continueOperation op).afterOperation).recast b d := fun t => by
    rw [continueOperation_recast, afterOperation_recast]
  cases tag with
  | none => exact hgo (s.setPlu { s.plu with suspended := none })
  | some tag => exact hgo ((s.setPlu { s.plu with suspended := none }).appendTag op.record tag)

/-! ## The answer to a waiting request -/

/-- The request no longer waits, and no answer is owed. -/
def unwaiting (s : State) : State :=
  s.setNrs { s.nrs with waiting := none, answerOwed := false }

/-- A request that waited is handled again (R77). -/
theorem retryWaiting_of_answered {s : State} {r : NoteRequest} {op : Operation} (h : s.nrs.waiting = some r)
    (howed : s.nrs.answerOwed = false) (hop : s.plu.suspended = some op) (hanswer : (s.unwaiting.handleRequest r).1 ≠ .waits) :
    s.retryWaiting = match s.unwaiting.handleRequest r with
      | (.tag t, v) => v.answered op (some t)
      | (_, v) => v.countUnplaced.answered op none := by
  unfold retryWaiting
  rw [h, howed]
  change (match s.plu.suspended, s.unwaiting.answerRequest r with
    | some op, (.tag t, s2) => s2.answered op (some t)
    | some op, (.unplaced, s2) => s2.answered op none
    | _, (_, s2) => s2) = _
  rw [hop, answerRequest_eq]
  generalize s.unwaiting.handleRequest r = p at hanswer ⊢
  obtain ⟨answer, t⟩ := p
  cases answer with
  | tag t => rfl
  | unplaced => rfl
  | waits => exact absurd rfl hanswer

/-- A panic owed the answer UNPLACED (R92). -/
theorem retryWaiting_of_owed {s : State} {r : NoteRequest} (h : s.nrs.waiting = some r) (howed : s.nrs.answerOwed = true) :
    s.retryWaiting = s.unwaiting.countUnplaced.answeredByPanic := by
  unfold retryWaiting
  rw [h]
  exact if_pos howed

theorem retryWaiting_of_none {s : State} (h : s.nrs.waiting = none) : s.retryWaiting = s := by
  unfold retryWaiting
  rw [h]

theorem retryWaiting_recast (s : State) (b : BellowsUnit) (d : List Bool) :
    (s.recast b d).retryWaiting = s.retryWaiting.recast b d := by
  unfold retryWaiting
  rw [recast_nrs]
  cases s.nrs.waiting with
  | none => rfl
  | some r =>
    dsimp only
    cases s.nrs.answerOwed with
    | true => exact afterOperation_recast (s.unwaiting.countUnplaced.setPlu { s.plu with suspended := none }) b d
    | false =>
      have hanswer := answerRequest_recast s.unwaiting b d r
      have hgo : ∀ (x : Option Operation) (p : Answer × State), (match x, (p.1, p.2.recast b d) with
          | some op, (.tag t, s2) => s2.answered op (some t)
          | some op, (.unplaced, s2) => s2.answered op none
          | _, (_, s2) => s2) = State.recast (match x, p with
          | some op, (.tag t, s2) => s2.answered op (some t)
          | some op, (.unplaced, s2) => s2.answered op none
          | _, (_, s2) => s2) b d := by
        intro x p
        obtain ⟨answer, t⟩ := p
        cases x with
        | none => rfl
        | some op =>
          cases answer with
          | tag tag => exact answered_recast t b d op (some tag)
          | unplaced => exact answered_recast t b d op none
          | waits => rfl
      exact (congrArg (fun p => (match s.plu.suspended, p with
          | some op, (.tag t, s2) => s2.answered op (some t)
          | some op, (.unplaced, s2) => s2.answered op none
          | _, (_, s2) => s2 : State)) hanswer).trans (hgo _ _)

theorem noteGoneOut_recast (s : State) (b : BellowsUnit) (d : List Bool) (f : NoteFrame) :
    (s.recast b d).noteGoneOut f = (s.noteGoneOut f).recast b d := by
  have hentry : ∀ tag, (s.recast b d).entry? tag = s.entry? tag := fun _ => rfl
  have hstart : ∀ tag, (s.recast b d).startGoneOut tag = (s.startGoneOut tag).recast b d := by
    intro tag
    unfold startGoneOut
    rw [hentry]
    cases s.entry? tag with
    | none => rfl
    | some e =>
      dsimp only
      cases e.active with
      | true => rfl
      | false =>
        rw [if_neg Bool.false_ne_true, if_neg Bool.false_ne_true]
        unfold queueStop countIfStolen
        split <;> rfl
  cases f with
  | start tag => exact hstart tag
  | refreshStart tag => exact hstart tag
  | stop tag a => exact retryWaiting_recast (s.freeEntry tag) b d
  | bow dir mask =>
    change (s.recast b d).payOwedBow = s.payOwedBow.recast b d
    unfold payOwedBow
    rw [recast_plu]
    cases s.plu.owedBow <;> rfl

end State

end Sys2Proof.Machine
end

section
/-! PROOFS. The end of an attempt, of an update-table entry and of a note frame (sections 10.6 to 10.8). -/

namespace Sys2Proof.Machine

namespace State

/-! ## The end of an attempt -/

theorem exec_attemptEnd {s : State} {a : Attempt} {read : List Bool} {r : AttemptResult} (hup : s.resetLow = false)
    (htx : s.lkc.tx = some a) (hr : attemptResult s.lkc.driven read = some r) :
    exec (.attemptEnd read) s = .next (match a.source with
      | .carried => s.freed r
      | .table key => ((s.freed r).endTableAttempt key a r).testDrain
      | .queueHead => ((s.freed r).endQueueAttempt a r).testDrain) := by
  refine (exec_of_up hup _).trans (congrArg _ ?_)
  change s.attemptEnd read = _
  unfold attemptEnd endAttempt
  rw [hr]
  dsimp only
  rw [htx]
  rfl

theorem testDrain_of_station {s : State} (h : s.stc.station ≠ .reloading) : s.testDrain = s :=
  if_neg fun hd => h hd.1

theorem recordDrop_station (s : State) (o : AttemptOutcome) : (s.recordDrop o).stc.station = s.stc.station := by
  rw [recordDrop_eq]
  split <;> rfl

/-- The end of an attempt of a table entry, as one update of the state (R155, R101). -/
theorem endTableAttempt_eq (s : State) (key : TableKey) (a : Attempt) (r : AttemptResult) : s.endTableAttempt key a r =
    { s with
      stc := (s.recordDrop (outcomeOf a.failures r)).stc
      lvu := match key with
        | .level k => { s.lvu with removalPending := s.lvu.removalPending.set k false }
        | .bellows | .registration | .status | .presence => s.lvu
      lkc := { s.lkc with
        updates := s.lkc.updates.put key (entryAfter (s.lkc.updates.get key) a r)
        linkDropTimer := (s.recordDrop (outcomeOf a.failures r)).lkc.linkDropTimer } } := by
  unfold endTableAttempt
  dsimp only
  rw [recordDrop_eq, recordDrop_eq]
  by_cases h : outcomeOf a.failures r = .dropped
  · rw [if_pos h, if_pos h]
    cases key <;> rfl
  · rw [if_neg h, if_neg h]
    cases key <;> rfl

theorem endTableAttempt_station (s : State) (key : TableKey) (a : Attempt) (r : AttemptResult) :
    (s.endTableAttempt key a r).stc.station = s.stc.station := by
  rw [endTableAttempt_eq]
  exact s.recordDrop_station _

end State

theorem outcomeOf_unsuccessful {failures : Nat} {r : AttemptResult}
    (h : r = .lostArbitration ∨ (r = .failure ∧ failures < 15)) : outcomeOf failures r = .unsuccessful := by
  rcases h with rfl | ⟨rfl, h⟩
  · rfl
  · exact if_pos (by omega)

theorem failuresAfter_unsuccessful {failures : Nat} {r : AttemptResult} (h : r ≠ .success) :
    failuresAfter failures r = if r = .failure then failures + 1 else failures := by
  cases r with
  | success => exact absurd rfl h
  | failure | lostArbitration => rfl

theorem outcomeOf_not_dropped {failures : Nat} {r : AttemptResult} (h : r ≠ .failure ∨ failures < 15) :
    outcomeOf failures r ≠ .dropped := by
  cases r with
  | success | lostArbitration => simp [outcomeOf]
  | failure =>
    have hfew : failures < 15 := h.resolve_left fun h => h rfl
    simp [outcomeOf, show failures + 1 < 16 by omega]

/-- Settles O38. -/
theorem tableAttemptsEmptyOrKeepTheEntry : Obligations.TableAttemptsEmptyOrKeepTheEntry := by
  intro s a read r hup htx hr driven
  have hexec := State.exec_attemptEnd hup htx hr
  refine ⟨fun hsource => ?_, fun key hsource hstation => ?_⟩
  · rw [hsource] at hexec
    exact hexec
  rw [hsource] at hexec
  dsimp only at hexec
  rw [State.testDrain_of_station (by rw [State.endTableAttempt_station]; exact hstation), State.endTableAttempt_eq] at hexec
  refine ⟨_, hexec, rfl, fun key' h => UpdateTable.get_put_ne _ _ (Ne.symm h), fun hs hw => ?_, fun hs hw => ?_, fun h => ?_,
    fun h => ?_, fun k hk => ?_, fun h => ?_, rfl⟩
  · rw [UpdateTable.get_put_self]
    subst hs
    simp [entryAfter, outcomeOf, hw]
  · rw [UpdateTable.get_put_self]
    subst hs
    simp [entryAfter, outcomeOf, hw]
    rfl
  · rw [UpdateTable.get_put_self]
    have houtcome := outcomeOf_unsuccessful h
    have hfailed : r ≠ .success := by rcases h with rfl | ⟨rfl, -⟩ <;> simp
    unfold entryAfter
    rw [houtcome, failuresAfter_unsuccessful hfailed]
    dsimp only
    refine ⟨fun hw => by rw [if_pos hw], fun hw hrw => ?_, fun hw hrw => ?_⟩
    · rw [if_neg (by simp [hw]), if_pos hrw]
      rfl
    · rw [if_neg (by simp [hw]), if_neg (by simp [hrw])]
      rfl
  · dsimp only
    rw [State.recordDrop_eq, if_neg (outcomeOf_not_dropped h)]
    exact ⟨rfl, rfl⟩
  · subst hk
    rfl
  · cases key with
    | level k => exact absurd rfl (h k)
    | bellows | registration | status | presence => rfl

/-! ## Drops -/

namespace State

/-- The state with the bits driven last forgotten. -/
def undriven (s : State) : State := { s with lkc := { s.lkc with driven := [] } }

theorem recast_undriven {s t : State} (h : t.blw = s.blw) : t.recast s.blw [] = t.undriven := by
  rw [← h]
  rfl

theorem noteGoneOut_undriven (s : State) (f : NoteFrame) : s.undriven.noteGoneOut f = (s.noteGoneOut f).undriven :=
  (noteGoneOut_recast s s.blw [] f).trans
    (recast_undriven ((FineMoves.frameOut s f).notesOnly.trans (NoteMoves.noteGoneOut s f).notesOnly).blw_eq)

theorem testDrain_undriven (s : State) : s.undriven.testDrain = s.testDrain.undriven := by
  unfold testDrain
  by_cases h : s.stc.station = .reloading ∧ s.lkc.noteQueue = [] ∧ s.lkc.updates.status = none
  · have hdriven : (if s.lkc.tx.isSome = true then ([] : List Bool) else []) = [] := ite_self []
    rw [if_pos h, if_pos (by exact h)]
    exact congrArg (fun d => ({ s.startLoading with lkc := { s.startLoading.lkc with driven := d } } : State)) hdriven
  · rw [if_neg h, if_neg (by exact h)]

/-- A frame dropped is counted, and LINK DROP stands for 1000 ms (R158). -/
def dropCounted (s : State) : State :=
  { s with
    stc := { s.stc with
      counters := { s.stc.counters with transmitFailures := min (s.stc.counters.transmitFailures + 1) 65535 }
      trouble := { s.stc.trouble with linkDrop := true } }
    lkc := { s.lkc with linkDropTimer := some (ms 1000) } }

end State

theorem outcomeOf_dropped {failures : Nat} (h : 15 ≤ failures) : outcomeOf failures .failure = .dropped :=
  if_neg (by omega)

/-- The sixteenth failure of a table entry's frame does what a success does, and the drop is counted (R155, R158). -/
theorem State.endTableAttempt_dropped (s : State) (key : TableKey) {a : Attempt} (h : 15 ≤ a.failures) :
    s.undriven.endTableAttempt key a .failure = (s.dropCounted.endTableAttempt key a .success).undriven := by
  have hentry : ∀ e, entryAfter e a .failure = entryAfter e a .success := fun e => by
    unfold entryAfter
    rw [outcomeOf_dropped h]
    rfl
  rw [State.endTableAttempt_eq, State.endTableAttempt_eq, hentry, outcomeOf_dropped h]
  rfl

/-- So does that of a note frame (R158). -/
theorem State.endQueueAttempt_dropped {s : State} {q : QueueItem} {rest : List QueueItem} (hq : s.lkc.noteQueue = q :: rest)
    {a : Attempt} (h : 15 ≤ a.failures) :
    s.undriven.endQueueAttempt a .failure = (s.dropCounted.endQueueAttempt a .success).undriven := by
  have hq' : s.undriven.lkc.noteQueue = q :: rest := hq
  have hq'' : s.dropCounted.lkc.noteQueue = q :: rest := hq
  unfold State.endQueueAttempt
  rw [hq', hq'', outcomeOf_dropped h]
  exact State.noteGoneOut_undriven (s.dropCounted.mapQueue fun _ => rest) q.frame

/-- Settles O39. -/
theorem droppedFramesCountAsTransmitted : Obligations.DroppedFramesCountAsTransmitted := by
  intro s a read hup htx hcarried hfailures hqueue hr
  have hfailed := State.exec_attemptEnd hup htx hr
  have hdone := State.exec_attemptEnd (s := s.dropCounted) hup htx (attemptResult_self s.lkc.driven)
  have hfreed : s.freed .failure = (s.freed .success).undriven := rfl
  rw [hfreed] at hfailed
  refine ⟨_, hdone, hfailed.trans (congrArg _ ?_)⟩
  cases hsource : a.source with
  | carried => exact absurd hsource hcarried
  | table key =>
    dsimp only
    rw [State.endTableAttempt_dropped _ key hfailures, State.testDrain_undriven]
    rfl
  | queueHead =>
    obtain ⟨q, rest, hq⟩ := List.exists_cons_of_ne_nil (hqueue hsource)
    dsimp only
    rw [State.endQueueAttempt_dropped (s := s.freed .success) hq hfailures, State.testDrain_undriven]
    rfl

end Sys2Proof.Machine
end

section
/-! PROOFS. Note frames that went out and note frames that did not, and the requests that waited for them. -/

namespace Sys2Proof.Machine

namespace State

/-! ## What a request that is handled again is answered -/

theorem capacityStep_ne_waits (s : State) (r : NoteRequest) (k : Slot) (pitch : Nat) :
    (s.capacityStep r k pitch).1 ≠ .waits := by
  unfold capacityStep
  split
  · exact (fun h => by cases h)
  · split
    · exact (fun h => by cases h)
    · dsimp only
      split <;> exact (fun h => by cases h)

theorem newNote_ne_waits (s : State) (r : NoteRequest) (k : Slot) (pitch : Nat) : (s.newNote r k pitch).1 ≠ .waits := by
  unfold newNote
  split
  · exact capacityStep_ne_waits s r k pitch
  · split
    · exact (fun h => by cases h)
    · split
      · exact capacityStep_ne_waits s r k pitch
      · exact capacityStep_ne_waits _ r k pitch

/-- While no attempt is in flight no request waits (R77). -/
theorem handleRequest_ne_waits {s : State} (h : s.lkc.tx = none) (r : NoteRequest) : (s.handleRequest r).1 ≠ .waits := by
  have hflight : ∀ tag, s.tagInFlight tag = false := fun tag => by simp [tagInFlight, queueInFlight, h]
  unfold handleRequest
  split
  · exact (fun h => by cases h)
  · split
    · exact newNote_ne_waits s r _ _
    · split
      · exact (fun h => by cases h)
      · rw [if_neg (by simp [hflight])]
        unfold revive
        split <;> exact (fun h => by cases h)

/-! ## The head of the note queue -/

theorem endQueueAttempt_of_success {s : State} {q : QueueItem} {rest : List QueueItem} (hq : s.lkc.noteQueue = q :: rest)
    (a : Attempt) : s.endQueueAttempt a .success =
      ({ s with lkc := { s.lkc with noteQueue := rest } } : State).noteGoneOut q.frame := by
  unfold endQueueAttempt
  rw [hq]
  rfl

theorem endQueueAttempt_of_unsuccessful {s : State} {q : QueueItem} {rest : List QueueItem}
    (hq : s.lkc.noteQueue = q :: rest) {a : Attempt} {r : AttemptResult} (hr : outcomeOf a.failures r = .unsuccessful) :
    s.endQueueAttempt a r =
      ({ s with lkc := { s.lkc with noteQueue :=
        if a.withdraw then rest else ⟨q.frame, failuresAfter a.failures r⟩ :: rest } } : State).noteNotGoneOut q.frame := by
  unfold endQueueAttempt
  rw [hq]
  dsimp only
  rw [hr]
  dsimp only
  cases a.withdraw <;> rfl

theorem endQueueAttempt_station (s : State) (a : Attempt) (r : AttemptResult) :
    (s.endQueueAttempt a r).stc.station = s.stc.station := by
  cases hq : s.lkc.noteQueue with
  | nil =>
    unfold endQueueAttempt
    rw [hq]
  | cons q rest =>
    exact (NoteMoves.endQueueAttempt hq a r).notesOnly.station_eq.trans (s.headEnded_frame a r q rest).2

theorem queueStop_explicit (s : State) (tag : Nat) (art : EndArticulation) : s.queueStop tag art = { s with
    stc := { s.stc with counters := { s.stc.counters with
      stolenNotes := if art = .stolen then min (s.stc.counters.stolenNotes + 1) 65535 else s.stc.counters.stolenNotes } }
    nrs := { s.nrs with roster := s.nrs.roster.map fun x => if x.tag = tag then { x with queued := .stop } else x }
    lkc := { s.lkc with noteQueue := s.lkc.noteQueue ++ [⟨.stop tag art, 0⟩] } } := by
  unfold queueStop countIfStolen
  split <;> rfl

theorem freeEntry_explicit (s : State) (tag : Nat) : s.freeEntry tag =
    { s with nrs := { s.nrs with roster := s.nrs.roster.filter (·.tag ≠ tag) } } := by
  have hfilter : s.nrs.roster.filter (·.tag != tag) = s.nrs.roster.filter (·.tag ≠ tag) :=
    List.filter_congr fun x _ => Bool.eq_iff_iff.2 (by simp)
  unfold freeEntry
  rw [hfilter]
  rfl

theorem payOwedBow_explicit (s : State) : s.payOwedBow = { s with
    plu := { s.plu with owedBow := none }
    lkc := { s.lkc with noteQueue := s.lkc.noteQueue ++ s.plu.owedBow.toList.map fun b => ⟨.bow b.1 b.2, 0⟩ } } := by
  have hsame : s.plu.owedBow = none → s.plu = { s.plu with owedBow := none } := fun h => by rw [← h]
  unfold payOwedBow
  cases h : s.plu.owedBow with
  | none =>
    exact congrArg₂ (fun x q => ({ s with plu := x, lkc := { s.lkc with noteQueue := q } } : State)) (hsame h)
      (List.append_nil s.lkc.noteQueue).symm
  | some b => rfl

/-- The frame names the entry of `tag` and is no NOTE END. -/
theorem start_of_queuedAs {f : NoteFrame} {tag : Nat} (htag : f.tag? = some tag) (hstop : f.queuedAs ≠ .stop) :
    (∃ k pitch v art, f = .start tag k pitch v art) ∨ ∃ k pitch v, f = .refreshStart tag k pitch v := by
  cases f with
  | start t k pitch v art =>
    obtain rfl := Option.some.inj htag
    exact .inl ⟨k, pitch, v, art, rfl⟩
  | refreshStart t k pitch v =>
    obtain rfl := Option.some.inj htag
    exact .inr ⟨k, pitch, v, rfl⟩
  | stop t a => exact absurd rfl hstop
  | bow d mask => cases htag

theorem noteGoneOut_of_start {f : NoteFrame} {tag : Nat} (htag : f.tag? = some tag) (hstop : f.queuedAs ≠ .stop)
    (s : State) : s.noteGoneOut f = s.startGoneOut tag := by
  rcases start_of_queuedAs htag hstop with ⟨k, pitch, v, art, rfl⟩ | ⟨k, pitch, v, rfl⟩ <;> rfl

theorem startGoneOut_of_active {s : State} {tag : Nat} {e : RosterEntry} (he : s.entry? tag = some e)
    (hactive : e.state ≠ .ending) : s.startGoneOut tag = { s with nrs := { s.nrs with roster := s.nrs.roster.map fun x =>
      if x.tag = tag then { x with state := .sounding, queued := .noFrame } else x } } := by
  unfold startGoneOut
  rw [he]
  exact if_pos (by simpa [RosterEntry.active] using hactive)

theorem startGoneOut_of_ending {s : State} {tag : Nat} {e : RosterEntry} (he : s.entry? tag = some e)
    (hending : e.state = .ending) {art : EndArticulation} (hart : e.endArticulation = some art) :
    s.startGoneOut tag = s.queueStop tag art := by
  unfold startGoneOut
  rw [he]
  dsimp only
  rw [if_neg (by simp [RosterEntry.active, hending]), hart]
  rfl

/-! ## The operation that goes on -/

theorem answered_explicit (s : State) (op : Operation) (answer : Option Nat) :
    let u : State := { s with plu := { s.plu with suspended := none } }
    let v : State := match answer with
      | some tag => { u with plu := { u.plu with held := u.plu.held.map fun x =>
          if x.contact = op.record then { x with tags := x.tags ++ [tag] } else x } }
      | none => u
    s.answered op answer = match State.sendRequests op.record op.requests v with
      | (x, some waiting) => { x with plu := { x.plu with suspended := some { op with requests := waiting } } }
      | (x, none) =>
        match op.reversal with
        | none => x.afterOperation
        | some contacts => (State.reversalThird contacts op.later x).afterOperation := by
  intro u v
  have hv : s.answered op answer = (v.continueOperation op).afterOperation := by
    cases answer <;> rfl
  rw [hv]
  unfold continueOperation
  rcases State.sendRequests op.record op.requests v with ⟨x, rest⟩
  cases rest with
  | some rest => exact if_pos rfl
  | none =>
    dsimp only
    cases op.reversal <;> rfl

theorem afterOperation_of_free {s : State} (h : s.plu.suspended = none) :
    s.afterOperation = if (State.placeAll s.plu.owed s).plu.suspended.isSome = true then State.placeAll s.plu.owed s
      else State.takeHeld (State.placeAll s.plu.owed s).plu.heldEvents (State.placeAll s.plu.owed s) :=
  if_neg (by simp [isSuspended, h])

/-- What a request that waited leads to once the attempt it waited for has ended (R77, R92): `u` is the state in which it
no longer waits. -/
theorem retryWaiting_spec {s : State} {w : NoteRequest} (hw : s.nrs.waiting = some w) (htx : s.lkc.tx = none) :
    let u : State := { s with nrs := { s.nrs with waiting := none, answerOwed := false } }
    (s.nrs.answerOwed = true → s.retryWaiting = ({ u with stc := { u.stc with counters := { u.stc.counters with
      unplacedNotes := min (u.stc.counters.unplacedNotes + 1) 65535 } } } : State).answeredByPanic) ∧
    (s.nrs.answerOwed = false → ∀ op, s.plu.suspended = some op →
      (u.handleRequest w).1 ≠ .waits ∧
      s.retryWaiting = match u.handleRequest w with
        | (.tag t, v) => v.answered op (some t)
        | (_, v) => ({ v with stc := { v.stc with counters := { v.stc.counters with
            unplacedNotes := min (v.stc.counters.unplacedNotes + 1) 65535 } } } : State).answered op none) := by
  intro u
  refine ⟨fun howed => retryWaiting_of_owed hw howed, fun howed op hop => ?_⟩
  have hanswer : (u.handleRequest w).1 ≠ .waits := handleRequest_ne_waits (s := u) htx w
  refine ⟨hanswer, (retryWaiting_of_answered hw howed hop hanswer).trans ?_⟩
  change (match u.handleRequest w with
    | (.tag t, v) => v.answered op (some t)
    | (_, v) => v.countUnplaced.answered op none) = _
  rcases u.handleRequest w with ⟨answer, v⟩
  cases answer <;> rfl

end State

/-- Settles O36. -/
theorem transmittedNoteFramesLeaveTheQueue : Obligations.TransmittedNoteFramesLeaveTheQueue := by
  refine ⟨fun s a q rest read hup hstation htx hsource hq hr => ?_, fun s => ⟨rfl, fun op answer => s.answered_explicit op answer⟩,
    fun s => ⟨fun h => if_pos h, fun h => State.afterOperation_of_free h, rfl, fun e es => rfl⟩⟩
  have hexec := State.exec_attemptEnd hup htx hr
  rw [hsource] at hexec
  dsimp only at hexec
  rw [State.testDrain_of_station (by rw [State.endQueueAttempt_station]; exact hstation),
    State.endQueueAttempt_of_success (s := s.freed .success) hq] at hexec
  refine ⟨fun tag e htag hstop he => ⟨fun hactive => ?_, fun hending art hart => ?_⟩, fun tag art hf hnone => ?_,
    fun tag art hf w hw => ?_, fun d mask hf => ?_⟩
  · rw [State.noteGoneOut_of_start htag hstop, State.startGoneOut_of_active (by exact he) hactive] at hexec
    exact hexec
  · rw [State.noteGoneOut_of_start htag hstop, State.startGoneOut_of_ending (by exact he) hending hart,
      State.queueStop_explicit] at hexec
    exact hexec
  · rw [hf] at hexec
    refine hexec.trans (congrArg _ ?_)
    change (State.freeEntry _ tag).retryWaiting = _
    rw [State.freeEntry_explicit, State.retryWaiting_of_none (by exact hnone)]
    rfl
  · rw [hf] at hexec
    intro u
    have hout : exec (.attemptEnd read) s = .next ({ s with
        nrs := { s.nrs with roster := s.nrs.roster.filter (·.tag ≠ tag) }
        lkc := { s.lkc with tx := none, noteQueue := rest } } : State).retryWaiting := by
      refine hexec.trans (congrArg _ ?_)
      change (State.freeEntry _ tag).retryWaiting = _
      rw [State.freeEntry_explicit]
      rfl
    obtain ⟨howed, hanswered⟩ := State.retryWaiting_spec (s := { s with
        nrs := { s.nrs with roster := s.nrs.roster.filter (·.tag ≠ tag) }
        lkc := { s.lkc with tx := none, noteQueue := rest } }) (w := w) hw rfl
    rw [hout]
    exact ⟨fun h => congrArg _ (howed h), fun h op hop => ⟨(hanswered h op hop).1, congrArg _ (hanswered h op hop).2⟩⟩
  · rw [hf] at hexec
    refine hexec.trans (congrArg _ ?_)
    change State.payOwedBow _ = _
    rw [State.payOwedBow_explicit]
    rfl

/-! ## Frames that did not go out -/

namespace State

theorem noteNotGoneOut_of_active {s : State} {f : NoteFrame} {tag : Nat} {e : RosterEntry} (htag : f.tag? = some tag)
    (hstop : f.queuedAs ≠ .stop) (he : s.entry? tag = some e) (hactive : e.state ≠ .ending) : s.noteNotGoneOut f = s := by
  have hactive' : e.active = true := by simpa [RosterEntry.active] using hactive
  rcases start_of_queuedAs htag hstop with ⟨k, pitch, v, art, rfl⟩ | ⟨k, pitch, v, rfl⟩
  all_goals
    unfold noteNotGoneOut
    dsimp only
    rw [he]
    exact if_pos hactive'

theorem withdrawTag_of_absent {s : State} {tag : Nat} (h : ∀ p ∈ s.lkc.noteQueue, p.frame.tag? ≠ some tag) :
    s.withdrawTag tag = s := by
  have hfilter : s.lkc.noteQueue.filter (·.frame.tag? != some tag) = s.lkc.noteQueue :=
    List.filter_eq_self.2 fun p hp => by simpa using h p hp
  exact congrArg (fun q => ({ s with lkc := { s.lkc with noteQueue := q } } : State)) hfilter

/-- A START whose withdrawal is pending leaves its entry free, with no END (R88). -/
theorem noteNotGoneOut_of_start {s : State} {f : NoteFrame} {tag : Nat} {e : RosterEntry} (htag : f.tag? = some tag)
    (hstart : f.queuedAs = .start) (he : s.entry? tag = some e) (hending : e.state = .ending)
    (habsent : ∀ p ∈ s.lkc.noteQueue, p.frame.tag? ≠ some tag) : s.noteNotGoneOut f = s.freeEntry tag := by
  rcases start_of_queuedAs htag (by simp [hstart]) with ⟨k, pitch, v, art, rfl⟩ | ⟨k, pitch, v, rfl⟩
  · unfold noteNotGoneOut
    dsimp only
    rw [he]
    dsimp only
    rw [if_neg (by simp [RosterEntry.active, hending]), withdrawTag_of_absent habsent]
  · cases hstart

/-- Behind a REFRESH-START whose withdrawal is pending the owed NOTE END is queued (R88). -/
theorem noteNotGoneOut_of_refreshStart {s : State} {f : NoteFrame} {tag : Nat} {e : RosterEntry}
    (htag : f.tag? = some tag) (hrefresh : f.queuedAs = .refreshStart) (he : s.entry? tag = some e)
    (hending : e.state = .ending) {art : EndArticulation} (hart : e.endArticulation = some art)
    (habsent : ∀ p ∈ s.lkc.noteQueue, p.frame.tag? ≠ some tag) : s.noteNotGoneOut f = s.queueStop tag art := by
  rcases start_of_queuedAs htag (by simp [hrefresh]) with ⟨k, pitch, v, art', rfl⟩ | ⟨k, pitch, v, rfl⟩
  · cases hrefresh
  · unfold noteNotGoneOut
    dsimp only
    rw [he]
    dsimp only
    rw [if_neg (by simp [RosterEntry.active, hending]), withdrawTag_of_absent habsent, hart]
    rfl

end State

theorem NoteFrame.stop_of_queuedAs {f : NoteFrame} {tag : Nat} (htag : f.tag? = some tag) (hstop : f.queuedAs = .stop) :
    ∃ art, f = .stop tag art := by
  cases f with
  | stop t art =>
    obtain rfl := Option.some.inj htag
    exact ⟨art, rfl⟩
  | start | refreshStart | bow => cases hstop

/-- Settles O37. -/
theorem unsuccessfulNoteFramesKeepTheirPlace : Obligations.UnsuccessfulNoteFramesKeepTheirPlace := by
  intro s a q rest read r hup hstation htx hsource hq hr hunsuccessful
  have hfailed : r ≠ .success := by rcases hunsuccessful with rfl | ⟨rfl, -⟩ <;> simp
  have hexec := State.exec_attemptEnd hup htx hr
  rw [hsource] at hexec
  dsimp only at hexec
  rw [State.testDrain_of_station (by rw [State.endQueueAttempt_station]; exact hstation),
    State.endQueueAttempt_of_unsuccessful (s := s.freed r) hq (outcomeOf_unsuccessful hunsuccessful),
    failuresAfter_unsuccessful hfailed] at hexec
  have hfreed : s.freed r = { s with lkc := { s.lkc with tx := none, driven := [] } } := by
    unfold State.freed
    rw [if_neg hfailed]
    rfl
  rw [hfreed] at hexec
  refine ⟨fun hkeep hentries hstops hbows => ?_, fun hkeep tag art hf w hw => ?_, fun hgone tag e art htag hstop he hending hart
    habsent => ⟨fun hstart => ?_, fun hrefresh => ?_⟩, fun d mask d' mask' hf hkeep howed hothers => ?_⟩
  · rw [hkeep] at hexec
    dsimp only [Bool.false_eq_true, if_false] at hexec
    refine hexec.trans (congrArg _ ?_)
    cases htag : q.frame.tag? with
    | none =>
      have hbow : ∃ d mask, q.frame = .bow d mask := by
        cases hframe : q.frame with
        | bow d mask => exact ⟨d, mask, rfl⟩
        | start | refreshStart | stop =>
          rw [hframe] at htag
          cases htag
      obtain ⟨d, mask, hf⟩ := hbow
      have hnone := hbows (by rw [hf]; rfl)
      rw [hf]
      exact if_neg (by simp [hnone])
    | some tag =>
      obtain ⟨e, he, hstate⟩ := hentries tag htag
      by_cases hstop : q.frame.queuedAs = .stop
      · obtain ⟨art, hf⟩ := NoteFrame.stop_of_queuedAs htag hstop
        have hnone := hstops hstop
        rw [hf]
        exact State.retryWaiting_of_none hnone
      · exact State.noteNotGoneOut_of_active htag hstop he (hstate.resolve_left hstop)
  · obtain ⟨frame, failures⟩ := q
    dsimp only at hf
    subst hf
    rw [hkeep] at hexec
    dsimp only [Bool.false_eq_true, if_false] at hexec
    intro u
    obtain ⟨howed, hanswered⟩ := State.retryWaiting_spec (s := { s with lkc := { s.lkc with
      tx := none
      driven := []
      noteQueue := ⟨.stop tag art, if r = .failure then a.failures + 1 else a.failures⟩ :: rest } }) (w := w) hw rfl
    exact ⟨fun h => hexec.trans (congrArg _ (howed h)), fun h op hop =>
      ⟨(hanswered h op hop).1, hexec.trans (congrArg _ (hanswered h op hop).2)⟩⟩
  · rw [hgone] at hexec
    dsimp only [if_true] at hexec
    have hout := State.noteNotGoneOut_of_start
      (s := { s with lkc := { s.lkc with tx := none, driven := [], noteQueue := rest } }) htag hstart he hending habsent
    refine hexec.trans (congrArg _ (hout.trans ?_))
    rw [State.freeEntry_explicit]
  · rw [hgone] at hexec
    dsimp only [if_true] at hexec
    have hout := State.noteNotGoneOut_of_refreshStart
      (s := { s with lkc := { s.lkc with tx := none, driven := [], noteQueue := rest } }) htag hrefresh he hending hart
      habsent
    refine hexec.trans (congrArg _ (hout.trans ?_))
    rw [State.queueStop_explicit]
  · obtain ⟨frame, failures⟩ := q
    dsimp only at hf
    subst hf
    rw [hkeep] at hexec
    dsimp only [Bool.false_eq_true, if_false] at hexec
    have hfilter : rest.filter (!·.frame.isBow) = rest := List.filter_eq_self.2 fun p hp => by simp [hothers p hp]
    refine hexec.trans (congrArg _ ((if_pos (by simp [howed])).trans ?_))
    rw [State.payOwedBow_explicit]
    change ({ s with
      plu := { s.plu with owedBow := none }
      lkc := { s.lkc with
        tx := none
        driven := []
        noteQueue := rest.filter (!·.frame.isBow) ++ s.plu.owedBow.toList.map fun b => ⟨.bow b.1 b.2, 0⟩ } } : State) = _
    rw [hfilter, howed]
    rfl

end Sys2Proof.Machine
end

section
/-! PROOFS. The drain of RELOADING and its end (section 11.8). -/

namespace Sys2Proof.Machine

/-! ## No attempt begins within a step of the note path -/

namespace State

theorem writeLevel_tx_of_free {s : State} (h : s.lkc.tx = none) (k : Slot) : (s.writeLevel k).lkc.tx = none := by
  rw [writeLevel_eq]
  simp [h]

theorem removeLevel_tx_of_free {s : State} (h : s.lkc.tx = none) (k : Slot) : (s.removeLevel k).lkc.tx = none := by
  have hkey : s.keyInFlight (.level k) = false := by simp [keyInFlight, h]
  unfold removeLevel
  split
  · exact h
  · rw [hkey, if_neg Bool.false_ne_true, removeEntry, hkey, if_neg Bool.false_ne_true]
    exact h

theorem reportCount_tx_of_free {s : State} (h : s.lkc.tx = none) (k : Slot) : (s.reportCount k).lkc.tx = none := by
  unfold reportCount
  dsimp only
  split
  · unfold levelRises
    dsimp only
    split
    · refine writeLevel_tx_of_free ?_ k
      exact h
    · exact h
  · split
    · refine removeLevel_tx_of_free ?_ k
      exact h
    · exact h

theorem restartLevel_tx_of_free {s : State} (h : s.lkc.tx = none) (k : Slot) : (s.restartLevel k).lkc.tx = none := by
  unfold restartLevel
  split
  · exact writeLevel_tx_of_free h k
  · exact h

end State

theorem FineMoves.keeps_free {s t : State} (h : FineMoves s t) (hs : s.lkc.tx = none) : t.lkc.tx = none := by
  refine h.keeps (P := fun s => s.lkc.tx = none) (fun u v hmove hu => ?_) hs
  cases hmove with
  | report k => exact State.reportCount_tx_of_free hu k
  | restart k => exact State.restartLevel_tx_of_free hu k
  | hold b => exact congrArg (Option.map _) hu
  | count | plu | append | drop | roster | enqueue | filter | replace => exact hu

namespace State

theorem endQueueAttempt_tx_of_free {s : State} (h : s.lkc.tx = none) (a : Attempt) (r : AttemptResult) :
    (s.endQueueAttempt a r).lkc.tx = none := by
  cases hq : s.lkc.noteQueue with
  | nil =>
    unfold endQueueAttempt
    rw [hq]
    exact h
  | cons q rest =>
    refine (FineMoves.of_noteMoves (NoteMoves.endQueueAttempt hq a r)).keeps_free ?_
    have hdrop : ∀ u : State, ∀ o, u.lkc.tx = none → (u.recordDrop o).lkc.tx = none := fun u o hu => by
      rw [recordDrop_eq]
      split <;> exact hu
    rcases s.headEnded_cases a r q rest with hended | hended | hended <;> rw [hended]
    · exact (FineMoves.frameOut _ _).keeps_free (hdrop _ _ h)
    · exact (FineMoves.frameBack _ _).keeps_free h
    · exact (FineMoves.frameBack _ _).keeps_free h

theorem endQueueAttempt_linkRate (s : State) (a : Attempt) (r : AttemptResult) :
    (s.endQueueAttempt a r).lkc.linkRate = s.lkc.linkRate := by
  have hnotes : ∀ {u v : State}, State.NotesOnly u v → v.lkc.linkRate = u.lkc.linkRate := fun h => by rw [h.lkc_eq]
  cases hq : s.lkc.noteQueue with
  | nil =>
    unfold endQueueAttempt
    rw [hq]
  | cons q rest =>
    refine (hnotes (NoteMoves.endQueueAttempt hq a r).notesOnly).trans ?_
    have hdrop : ∀ u : State, ∀ o, (u.recordDrop o).lkc.linkRate = u.lkc.linkRate := fun u o => by
      rw [recordDrop_eq]
      split <;> rfl
    rcases s.headEnded_cases a r q rest with hended | hended | hended <;> rw [hended]
    · exact (hnotes (FineMoves.frameOut _ _).notesOnly).trans (hdrop _ _)
    · exact hnotes (FineMoves.frameBack _ _).notesOnly
    · exact hnotes (FineMoves.frameBack _ _).notesOnly

/-! ## The test of the drain -/

/-- The drain goes on, or LOADING begins. -/
theorem testDrain_station {s : State} (h : s.stc.station = .reloading) : s.testDrain.stc.station =
    if s.lkc.noteQueue = [] ∧ s.lkc.updates.status = none then .loading else .reloading := by
  unfold testDrain
  by_cases hend : s.lkc.noteQueue = [] ∧ s.lkc.updates.status = none
  · rw [if_pos hend, if_pos ⟨h, hend⟩]
    rfl
  · rw [if_neg hend, if_neg fun hd => hend hd.2, h]

theorem testDrain_of_full {s : State} (h : ¬(s.lkc.noteQueue = [] ∧ s.lkc.updates.status = none)) : s.testDrain = s :=
  if_neg fun hd => h hd.2

theorem testDrain_counters (s : State) : s.testDrain.stc.counters = s.stc.counters := by
  rcases testDrain_cases s with h | ⟨-, h⟩ <;> rw [h]
  rfl

end State

/-- The result sends the frame, or drops it as sent (R157, R158). -/
def OutOf (failures : Nat) (r : AttemptResult) : Prop := r = .success ∨ (r = .failure ∧ 15 ≤ failures)

theorem not_outOf_iff {failures : Nat} {r : AttemptResult} :
    ¬OutOf failures r ↔ r = .lostArbitration ∨ (r = .failure ∧ failures < 15) := by
  cases r <;> simp [OutOf]

theorem outcomeOf_of_out {failures : Nat} {r : AttemptResult} (h : OutOf failures r) :
    outcomeOf failures r = .transmitted ∨ outcomeOf failures r = .dropped := by
  rcases h with rfl | ⟨rfl, h⟩
  · exact .inl rfl
  · exact .inr (outcomeOf_dropped h)

/-- An entry stays after an attempt where its value was rewritten, and after one without success where no removal waits. -/
theorem entryAfter_eq_none_iff (e : Option TableEntry) (a : Attempt) (r : AttemptResult) : entryAfter e a r = none ↔
    e = none ∨ (OutOf a.failures r ∧ a.rewritten = false ∨ ¬OutOf a.failures r ∧ a.withdraw = true) := by
  by_cases hout : OutOf a.failures r
  · have hafter : entryAfter e a r = if a.rewritten then e else none := by
      unfold entryAfter
      rcases outcomeOf_of_out hout with h | h <;> rw [h]
    rw [hafter]
    cases a.rewritten <;> simp [hout]
  · unfold entryAfter
    rw [outcomeOf_unsuccessful (not_outOf_iff.1 hout)]
    cases a.withdraw <;> cases a.rewritten <;> simp [hout]

namespace State

/-- The head of the queue goes out, or is dropped as if it had: `t` is the state in which its block takes the report. -/
theorem endQueueAttempt_of_out {s : State} {q : QueueItem} {rest : List QueueItem} (hq : s.lkc.noteQueue = q :: rest)
    {a : Attempt} {r : AttemptResult} (hout : OutOf a.failures r) : ∃ t : State,
      s.endQueueAttempt a r = t.noteGoneOut q.frame ∧ t.lkc.noteQueue = rest ∧ t.lkc.updates = s.lkc.updates ∧
      t.nrs = s.nrs ∧ t.plu = s.plu ∧ t.stc.station = s.stc.station ∧
      t.stc.counters.unplacedNotes = s.stc.counters.unplacedNotes ∧
      (r = .success → t = { s with lkc := { s.lkc with noteQueue := rest } }) := by
  rcases hout with rfl | ⟨rfl, h⟩
  · exact ⟨_, endQueueAttempt_of_success hq a, rfl, rfl, rfl, rfl, rfl, rfl, fun _ => rfl⟩
  · refine ⟨(s.mapQueue fun _ => rest).dropCounted, ?_, rfl, rfl, rfl, rfl, rfl, rfl, (fun h => by cases h)⟩
    unfold endQueueAttempt
    rw [hq, outcomeOf_dropped h]
    rfl

theorem endQueueAttempt_of_kept {s : State} {q : QueueItem} {rest : List QueueItem} (hq : s.lkc.noteQueue = q :: rest)
    {a : Attempt} {r : AttemptResult} (hout : ¬OutOf a.failures r) : ∃ t : State,
      s.endQueueAttempt a r = t.noteNotGoneOut q.frame ∧
      t = { s with lkc := { s.lkc with noteQueue :=
        if a.withdraw then rest else ⟨q.frame, failuresAfter a.failures r⟩ :: rest } } :=
  ⟨_, endQueueAttempt_of_unsuccessful hq (outcomeOf_unsuccessful (not_outOf_iff.1 hout)), rfl⟩

end State

/-! ## What the head's attempt leaves in the queue -/

namespace State

theorem startGoneOut_left (s : State) {tag : Nat} {e : RosterEntry} (he : s.entry? tag = some e) :
    ((s.startGoneOut tag).lkc.noteQueue = [] ↔ s.lkc.noteQueue = [] ∧ e.state ≠ .ending) ∧
      (s.startGoneOut tag).lkc.updates = s.lkc.updates := by
  by_cases h : e.state = .ending
  · have hstop : s.startGoneOut tag = s.queueStop tag (e.endArticulation.getD .normal) := by
      unfold startGoneOut
      rw [he]
      exact if_neg (by simp [RosterEntry.active, h])
    rw [hstop, queueStop_explicit]
    simp [h]
  · rw [startGoneOut_of_active he h]
    simp [h]

theorem noteNotGoneOut_left (s : State) {f : NoteFrame} {tag : Nat} {e : RosterEntry} (htag : f.tag? = some tag)
    (hstop : f.queuedAs ≠ .stop) (he : s.entry? tag = some e) (hending : e.state = .ending)
    (habsent : ∀ p ∈ s.lkc.noteQueue, p.frame.tag? ≠ some tag) :
    ((s.noteNotGoneOut f).lkc.noteQueue = [] ↔ s.lkc.noteQueue = [] ∧ f.queuedAs = .start) ∧
      (s.noteNotGoneOut f).lkc.updates = s.lkc.updates := by
  by_cases hstart : f.queuedAs = .start
  · rw [noteNotGoneOut_of_start htag hstart he hending habsent]
    exact ⟨⟨fun h => ⟨h, hstart⟩, And.left⟩, rfl⟩
  · have hrefresh : s.noteNotGoneOut f = s.queueStop tag (e.endArticulation.getD .normal) := by
      rcases start_of_queuedAs htag hstop with ⟨k, pitch, v, art, rfl⟩ | ⟨k, pitch, v, rfl⟩
      · exact absurd rfl hstart
      · unfold noteNotGoneOut
        dsimp only
        rw [he]
        dsimp only
        rw [if_neg (by simp [RosterEntry.active, hending]), withdrawTag_of_absent habsent]
    rw [hrefresh, queueStop_explicit]
    simp [hstart]

/-- A panic's answer to a waiting request with nothing owed or held behind it: the operation ends, and UNPLACED counts
once (R92). -/
theorem retryWaiting_of_panic {s : State} {w : NoteRequest} (hw : s.nrs.waiting = some w) (howed : s.nrs.answerOwed = true)
    (hnone : s.plu.owed = []) (hheld : s.plu.heldEvents = []) : s.retryWaiting = { s with
      stc := { s.stc with counters := { s.stc.counters with
        unplacedNotes := min (s.stc.counters.unplacedNotes + 1) 65535 } }
      plu := { s.plu with suspended := none, owed := [], heldEvents := [] }
      nrs := { s.nrs with waiting := none, answerOwed := false } } := by
  let u : State := { s with
    stc := { s.stc with counters := { s.stc.counters with
      unplacedNotes := min (s.stc.counters.unplacedNotes + 1) 65535 } }
    plu := { s.plu with suspended := none }
    nrs := { s.nrs with waiting := none, answerOwed := false } }
  have hu : s.retryWaiting = u.afterOperation := retryWaiting_of_owed hw howed
  have hplace : State.placeAll u.plu.owed u = u.setPlu { u.plu with owed := [] } := by
    rw [show u.plu.owed = [] from hnone]
    rfl
  rw [hu, afterOperation_of_free rfl, hplace, if_neg (by exact Bool.false_ne_true),
    show (u.setPlu { u.plu with owed := [] }).plu.heldEvents = [] from hheld]
  rfl

theorem noteNotGoneOut_of_bow_left (s : State) (d : Direction) (mask : SlotMask) :
    (s.lkc.noteQueue ≠ [] → (s.noteNotGoneOut (.bow d mask)).lkc.noteQueue ≠ []) ∧
      (s.noteNotGoneOut (.bow d mask)).lkc.updates = s.lkc.updates := by
  cases h : s.plu.owedBow with
  | none =>
    have hsame : s.noteNotGoneOut (.bow d mask) = s := if_neg (by simp [h])
    rw [hsame]
    exact ⟨id, rfl⟩
  | some b =>
    have hpaid : s.noteNotGoneOut (.bow d mask) = s.withdrawBow.payOwedBow := if_pos (by simp [h])
    have howed : s.withdrawBow.plu.owedBow = some b := h
    rw [hpaid, payOwedBow_explicit, howed]
    exact ⟨fun _ => by simp, rfl⟩

end State

/-! ## The end of the drain -/

/-- The station after the test of the drain in a state that is not left by what the attempt's end did. -/
theorem State.drained {s t : State} (hstation : s.stc.station = .reloading) {P : Prop} [Decidable P]
    (hP : (s.lkc.noteQueue = [] ∧ s.lkc.updates.status = none) ↔ P) (ht : t = s.testDrain) :
    t.stc.station = if P then .loading else .reloading := by
  rw [ht, State.testDrain_station hstation]
  exact if_congr hP rfl rfl

/-- Settles O14. -/
theorem drainEndsInLoading : Obligations.DrainEndsInLoading := by
  refine ⟨fun s hup hstation htimer => ?_, fun s a read r hup hstation htx hsource hr => ?_,
    fun s a read r hup hstation htx hr => ?_⟩
  · exact (exec_of_up hup _).trans (congrArg _ (if_pos ⟨hstation, htimer⟩))
  · have hexec := State.exec_attemptEnd hup htx hr
    obtain ⟨u, hu, hfree, hrate, hustation⟩ : ∃ u : State, exec (.attemptEnd read) s = .next u.testDrain ∧ u.lkc.tx = none ∧
        u.lkc.linkRate = s.lkc.linkRate ∧ u.stc.station = .reloading := by
      cases hs : a.source with
      | carried => exact absurd hs hsource
      | table key =>
        rw [hs] at hexec
        refine ⟨_, hexec, ?_, ?_, (State.endTableAttempt_station _ _ _ _).trans hstation⟩ <;>
          rw [State.endTableAttempt_eq] <;> rfl
      | queueHead =>
        rw [hs] at hexec
        exact ⟨_, hexec, State.endQueueAttempt_tx_of_free rfl a r, State.endQueueAttempt_linkRate _ a r,
          (State.endQueueAttempt_station _ a r).trans hstation⟩
    refine ⟨_, hu, ?_⟩
    by_cases hend : u.lkc.noteQueue = [] ∧ u.lkc.updates.status = none
    · have hload : u.testDrain = u.startLoading := if_pos ⟨hustation, hend⟩
      rw [hload]
      exact ⟨congrArg (Option.map Attempt.carry) hfree, hrate, .inr ⟨rfl, rfl, rfl, rfl, rfl⟩⟩
    · rw [State.testDrain_of_full hend]
      exact ⟨hfree, hrate, .inl ⟨hustation, not_and_or.1 hend⟩⟩
  intro out
  have hout : out ↔ OutOf a.failures r := Iff.rfl
  have hexec := State.exec_attemptEnd hup htx hr
  refine ⟨fun key hsource => ?_, fun q rest hq hsource => ?_⟩
  · rw [hsource] at hexec
    intro kept
    have hkept : ¬kept ↔ (OutOf a.failures r ∧ a.rewritten = false ∨ ¬OutOf a.failures r ∧ a.withdraw = true) := by
      by_cases h : OutOf a.failures r
      · simp [kept, hout, h]
      · simp [kept, hout, h]
    refine ⟨_, hexec, State.drained
      ((State.endTableAttempt_station (s.freed r) key a r).trans hstation) ?_ rfl⟩
    rw [State.endTableAttempt_eq]
    refine and_congr Iff.rfl ?_
    by_cases hkey : key = .status
    · subst hkey
      exact (entryAfter_eq_none_iff _ a r).trans (or_congr Iff.rfl (by simp [hkept]))
    · have hother : (s.lkc.updates.put key (entryAfter (s.lkc.updates.get key) a r)).get .status = s.lkc.updates.status :=
        UpdateTable.get_put_ne _ _ hkey
      simp only [hkey, false_and, or_false]
      exact iff_of_eq (congrArg (· = none) hother)
  rw [hsource] at hexec
  have hstay := (State.endQueueAttempt_station (s.freed r) a r).trans hstation
  intro last
  by_cases h : OutOf a.failures r
  · obtain ⟨u, hu, hqueue, hupdates, hnrs, hplu, -, hunplaced, hsuccess⟩ :=
      State.endQueueAttempt_of_out (s := s.freed r) hq h
    dsimp only at hexec
    rw [hu] at hexec hstay
    refine ⟨fun tag htag hstop e he hwithdraw habsent => ?_, fun tag art hf hkeep => ⟨fun hnone => ?_, fun hwait howed hplaced hheld => ?_⟩,
      fun d mask hf hkeep => ?_⟩
    · rw [State.noteGoneOut_of_start htag hstop] at hexec hstay
      obtain ⟨hleft, hsame⟩ := u.startGoneOut_left (tag := tag) (e := e) (by unfold State.entry?; rw [hnrs]; exact he)
      refine ⟨_, hexec, State.drained hstay ?_ rfl⟩
      rw [hleft, hsame, hqueue, hupdates]
      simp only [last, hout, h, true_and, not_true, false_and, or_false]
      exact and_right_comm
    · have hgone : u.noteGoneOut q.frame = u.freeEntry tag := by
        rw [hf]
        exact State.retryWaiting_of_none (hnrs ▸ hnone : u.nrs.waiting = none)
      rw [hgone] at hexec hstay
      refine ⟨_, hexec, State.drained hstay ?_ rfl, fun hlast hr => ?_⟩
      · change u.lkc.noteQueue = [] ∧ u.lkc.updates.status = none ↔ _
        rw [hqueue, hupdates]
        exact (and_iff_left (hout.2 h)).symm
      · rw [State.testDrain_of_full, State.freeEntry_explicit, hsuccess hr]
        · subst hr
          rfl
        · change ¬(u.lkc.noteQueue = [] ∧ u.lkc.updates.status = none)
          rw [hqueue, hupdates]
          exact hlast
    · obtain ⟨w, hw⟩ := Option.isSome_iff_exists.1 hwait
      have hgone : u.noteGoneOut q.frame = (u.freeEntry tag).retryWaiting := by rw [hf]; rfl
      rw [hgone, State.retryWaiting_of_panic (s := u.freeEntry tag) (w := w) (hnrs ▸ hw : u.nrs.waiting = some w)
        (hnrs ▸ howed : u.nrs.answerOwed = true) (hplu ▸ hplaced : u.plu.owed = []) (hplu ▸ hheld : u.plu.heldEvents = [])]
        at hexec hstay
      refine ⟨_, hexec, State.drained hstay ?_ rfl, ?_⟩
      · change u.lkc.noteQueue = [] ∧ u.lkc.updates.status = none ↔ _
        rw [hqueue, hupdates]
        exact (and_iff_left (hout.2 h)).symm
      · rw [State.testDrain_counters]
        exact congrArg (fun n => min (n + 1) 65535) hunplaced
    · have hgone : u.noteGoneOut q.frame = u.payOwedBow := by rw [hf]; rfl
      rw [hgone, State.payOwedBow_explicit] at hexec hstay
      refine ⟨_, hexec, State.drained hstay ?_ rfl⟩
      have howed : u.plu.owedBow = s.plu.owedBow := congrArg PlacementUnit.owedBow hplu
      have hstatus : u.lkc.updates.status = s.lkc.updates.status := congrArg UpdateTable.status hupdates
      have hsent : out := hout.2 h
      dsimp only
      rw [hqueue, hstatus, howed]
      cases s.plu.owedBow <;> simp [last, hsent]
  · obtain ⟨u, hu, huq⟩ := State.endQueueAttempt_of_kept (s := s.freed r) hq h
    dsimp only at hexec
    rw [hu] at hexec hstay
    have hnrs : u.nrs = s.nrs := by rw [huq]; rfl
    have hplu : u.plu = s.plu := by rw [huq]; rfl
    have hupdates : u.lkc.updates = s.lkc.updates := by rw [huq]; rfl
    have hunplaced : u.stc.counters = s.stc.counters := by rw [huq]; rfl
    have hqueue : u.lkc.noteQueue = if a.withdraw then rest else ⟨q.frame, failuresAfter a.failures r⟩ :: rest := by rw [huq]
    have hfull : a.withdraw = false → u.lkc.noteQueue ≠ [] := fun hkeep => by
      rw [hqueue, hkeep]
      exact List.cons_ne_nil _ _
    clear huq hu
    refine ⟨fun tag htag hstop e he hwithdraw habsent => ?_, fun tag art hf hkeep => ⟨fun hnone => ?_, fun hwait howed hplaced hheld => ?_⟩,
      fun d mask hf hkeep => ?_⟩
    · have hentry : u.entry? tag = some e := by unfold State.entry?; rw [hnrs]; exact he
      by_cases hending : e.state = .ending
      · rw [if_pos (hwithdraw.2 hending)] at hqueue
        obtain ⟨hleft, hsame⟩ := u.noteNotGoneOut_left htag hstop hentry hending (by rw [hqueue]; exact habsent)
        refine ⟨_, hexec, State.drained hstay ?_ rfl⟩
        rw [hleft, hsame, hqueue, hupdates]
        simp only [last, hout, h, hending, true_and, not_false_eq_true, false_and, false_or]
        exact and_right_comm
      · have hkeep : a.withdraw = false := Bool.not_eq_true _ ▸ fun hw => hending (hwithdraw.1 hw)
        rw [State.noteNotGoneOut_of_active htag hstop hentry hending] at hexec hstay
        refine ⟨_, hexec, State.drained hstay ?_ rfl⟩
        simp [hfull hkeep, hout, h, hending]
    · have hback : u.noteNotGoneOut q.frame = u := by
        rw [hf]
        exact State.retryWaiting_of_none (hnrs ▸ hnone : u.nrs.waiting = none)
      rw [hback] at hexec hstay
      refine ⟨_, hexec, State.drained hstay ?_ rfl, fun _ hr => absurd (.inl hr) h⟩
      simp [hfull hkeep, hout, h]
    · obtain ⟨w, hw⟩ := Option.isSome_iff_exists.1 hwait
      have hback : u.noteNotGoneOut q.frame = u.retryWaiting := by rw [hf]; rfl
      rw [hback, State.retryWaiting_of_panic (w := w) (hnrs ▸ hw : u.nrs.waiting = some w)
        (hnrs ▸ howed : u.nrs.answerOwed = true) (hplu ▸ hplaced : u.plu.owed = []) (hplu ▸ hheld : u.plu.heldEvents = [])]
        at hexec hstay
      refine ⟨_, hexec, State.drained hstay ?_ rfl, ?_⟩
      · simp [hfull hkeep, hout, h]
      · rw [State.testDrain_counters]
        exact congrArg (fun c : Counters => min (c.unplacedNotes + 1) 65535) hunplaced
    · obtain ⟨hne, -⟩ := u.noteNotGoneOut_of_bow_left d mask
      rw [hf] at hexec hstay
      refine ⟨_, hexec, State.drained hstay ?_ rfl⟩
      simp [hne (hfull hkeep), hout, h]

end Sys2Proof.Machine
end

section
/-! PROOFS. The Matrix Scanner: what a scan debounces, and what it delivers (chapter 2). -/

namespace Sys2Proof.Machine

/-! ## The kind and the ordinal of a contact -/

theorem PlanRange.covers_iff {r : PlanRange} {i : Nat} : r.covers i = true ↔
    r.first ≤ i ∧ i < r.first + r.count ∧ i < 192 ∧ r.ordinalBase + (i - r.first) ≤ 4095 := by
  simp [PlanRange.covers, and_assoc]

theorem MatrixScanner.button_of_first {m : MatrixScanner} {i : Nat} {before after : List PlanRange} {r : PlanRange}
    (hplan : m.plan = before ++ r :: after) (hr : r.covers i = true) (hbefore : ∀ b ∈ before, ¬b.covers i = true) :
    m.button i = (r.kind, r.ordinalBase + (i - r.first)) := by
  have hnone : before.find? (·.covers i) = none := List.find?_eq_none.2 hbefore
  unfold MatrixScanner.button
  rw [hplan, List.find?_append, hnone, Option.none_or, List.find?_cons_of_pos (p := fun x : PlanRange => x.covers i) hr]

theorem MatrixScanner.button_of_none {m : MatrixScanner} {i : Nat} (h : ∀ r ∈ m.plan, ¬r.covers i = true) :
    m.button i = (.noKind, 0) := by
  unfold MatrixScanner.button
  rw [List.find?_eq_none.2 h]

/-! ## Deliveries -/

namespace State

theorem deliver_of_note {s : State} {i : Nat} (h : (s.msc.button i).1 = .treble ∨ (s.msc.button i).1 = .bass) :
    s.deliverRelease i = s.placementEvent (.release i) ∧ s.deliverPress i =
      s.placementEvent (.press i (s.msc.button i).2 (s.msc.button i).1 (0 < s.msc.shiftCount)) := by
  unfold deliverRelease deliverPress
  rcases hb : s.msc.button i with ⟨kind, ordinal⟩
  rw [hb] at h
  rcases h with rfl | rfl <;> exact ⟨rfl, rfl⟩

theorem deliver_of_register {s : State} {i : Nat} (h : (s.msc.button i).1 = .register) : s.deliverRelease i = s ∧
    s.deliverPress i = if (s.msc.button i).2 ≤ 15 then s.selectRegistration (s.msc.button i).2 else s := by
  unfold deliverRelease deliverPress
  rcases hb : s.msc.button i with ⟨kind, ordinal⟩
  rw [hb] at h
  obtain rfl : kind = .register := h
  exact ⟨rfl, rfl⟩

theorem deliver_of_shift {s : State} {i : Nat} (h : (s.msc.button i).1 = .shift) :
    s.deliverPress i = { s with msc := { s.msc with shiftCount := s.msc.shiftCount + 1 } } ∧
      s.deliverRelease i = { s with msc := { s.msc with shiftCount := s.msc.shiftCount - 1 } } := by
  unfold deliverRelease deliverPress
  rcases hb : s.msc.button i with ⟨kind, ordinal⟩
  rw [hb] at h
  obtain rfl : kind = .shift := h
  exact ⟨rfl, rfl⟩

theorem deliver_of_noKind {s : State} {i : Nat} (h : (s.msc.button i).1 = .noKind) :
    s.deliverPress i = s ∧ s.deliverRelease i = s := by
  unfold deliverRelease deliverPress
  rcases hb : s.msc.button i with ⟨kind, ordinal⟩
  rw [hb] at h
  obtain rfl : kind = .noKind := h
  exact ⟨rfl, rfl⟩

/-- A selection taken (R105, R119). -/
theorem selectRegistration_of_working {s : State} (h : s.working = true) (n : Nat) : s.selectRegistration n =
    if s.grf.registrationMode = .shared ∧ s.stc.station = .run then { s.adoptRegistration n with
      lkc := { (s.adoptRegistration n).lkc with
        updates := { (s.adoptRegistration n).lkc.updates with
          registration := some ⟨.registration s.grf.ownGroup n, 0⟩ }
        tx := (s.adoptRegistration n).lkc.tx.map fun a =>
          if a.source = .table .registration then { a with rewritten := true, withdraw := false } else a } }
    else s.adoptRegistration n := by
  have hgrf := s.adoptRegistration_grf n
  have hstation : (s.adoptRegistration n).stc.station = s.stc.station := by rw [s.adoptRegistration_written n]
  unfold selectRegistration
  rw [if_pos h]
  generalize s.adoptRegistration n = u at hgrf hstation ⊢
  have hmode : u.grf.registrationMode = s.grf.registrationMode := by rw [hgrf]
  have hgroup : u.grf.ownGroup = s.grf.ownGroup := by rw [hgrf]
  dsimp only
  rw [hmode, hstation, hgroup, writeEntry_eq_mark]
  rfl

end State

/-! ## What a scan accepts -/

/-- A reading changes the debounced state of a contact exactly where its transition is accepted (R23). -/
theorem Contact.debounce_accepted_iff (c : Contact) (n : Nat) (closed : Bool) :
    (c.debounce n closed).2 = true ↔ (c.debounce n closed).1.pressed ≠ c.pressed := by
  unfold Contact.debounce
  split
  · simp
  · split
    · simp
    · simp

theorem MatrixScanner.debounceFrom_getD (m : MatrixScanner) (closed : List Nat) {i : Nat} (h : i < m.contacts.length) :
    (m.debounceFrom closed 0 m.contacts).1.getD i ⟨false, 0⟩ =
      if m.scanned i then ((m.contacts.getD i ⟨false, 0⟩).debounce m.debounceCount (closed.contains i)).1
      else m.contacts.getD i ⟨false, 0⟩ := by
  obtain ⟨-, hget, -, -⟩ := m.debounceFrom_spec closed m.contacts 0
  have hi := hget i h
  rw [Nat.zero_add] at hi
  rw [List.getD_eq_getElem?_getD, hi, List.getD_eq_getElem?_getD, List.getElem?_eq_getElem h]
  rfl

theorem MatrixScanner.debounceFrom_accepted (m : MatrixScanner) (closed : List Nat) (i : Nat) :
    i ∈ (m.debounceFrom closed 0 m.contacts).2 ↔ i < m.contacts.length ∧
      ((m.debounceFrom closed 0 m.contacts).1.getD i ⟨false, 0⟩).pressed ≠ (m.contacts.getD i ⟨false, 0⟩).pressed := by
  obtain ⟨-, -, hmem, -⟩ := m.debounceFrom_spec closed m.contacts 0
  rw [hmem]
  constructor
  · rintro ⟨j, hj, rfl, hscanned, haccepted⟩
    rw [Nat.zero_add] at hscanned haccepted ⊢
    refine ⟨hj, ?_⟩
    rw [m.debounceFrom_getD closed hj, if_pos hscanned, List.getD_eq_getElem?_getD, List.getElem?_eq_getElem hj]
    exact (Contact.debounce_accepted_iff _ _ _).1 haccepted
  · rintro ⟨hi, hchanged⟩
    rw [m.debounceFrom_getD closed hi] at hchanged
    by_cases hscanned : m.scanned i = true
    · rw [if_pos hscanned, List.getD_eq_getElem?_getD, List.getElem?_eq_getElem hi] at hchanged
      exact ⟨i, hi, by omega, hscanned, (Contact.debounce_accepted_iff _ _ _).2 hchanged⟩
    · rw [if_neg hscanned] at hchanged
      exact absurd rfl hchanged

theorem State.finishScan_contacts (s : State) (closed : List Nat) :
    (s.finishScan closed).msc.contacts = (s.msc.debounceFrom closed 0 s.msc.contacts).1 := by
  have h := s.finishScan_only closed
  unfold State.DeliveryOnly at h
  rw [h.msc_eq]
  rfl

/-- The releases go first, and then the presses (R24). -/
theorem State.finishScan_eq {s : State} {closed : List Nat} {contacts : List Contact} {accepted : List Nat}
    (h : s.msc.debounceFrom closed 0 s.msc.contacts = (contacts, accepted)) : s.finishScan closed =
      (accepted.filter fun i => (contacts.getD i ⟨false, 0⟩).pressed).foldl State.deliverPress
        ((accepted.filter fun i => !(contacts.getD i ⟨false, 0⟩).pressed).foldl State.deliverRelease
          { s with msc := { s.msc with contacts := contacts, scanning := false } }) := by
  unfold State.finishScan
  rw [h]
  rfl

/-- Settles O24. -/
theorem transitionsAreDeliveredByKind : Obligations.TransitionsAreDeliveredByKind := by
  refine ⟨fun m i => ⟨fun before r after hplan hr hbefore => ?_, fun h => ?_⟩,
    fun s i => ⟨State.deliver_of_note, State.deliver_of_register, State.deliver_of_shift, State.deliver_of_noKind⟩,
    fun s n => ?_,
    fun s closed => ⟨rfl, ?_⟩⟩
  · exact MatrixScanner.button_of_first hplan (PlanRange.covers_iff.2 hr) fun b hb h => hbefore b hb (PlanRange.covers_iff.1 h)
  · exact MatrixScanner.button_of_none fun r hr hc => h r hr (PlanRange.covers_iff.1 hc)
  · intro u reg
    have hu : s.adoptRegistration n = u := rfl
    have hlevel := fun k => s.adoptRegistration_level n k
    have htaken := fun h => State.selectRegistration_of_working (s := s) h n
    rw [hu] at hlevel htaken
    clear_value u
    refine ⟨fun k => (hlevel k).trans ?_, fun h => State.selectRegistration_of_idle h n, htaken⟩
    unfold sectionLevel
    rw [clampInt_eq _ _ _ (by omega)]
  · have hcontacts := s.finishScan_contacts closed
    have hsorted := (s.msc.debounceFrom_spec closed s.msc.contacts 0).2.2.2
    have haccepted := s.msc.debounceFrom_accepted closed
    rw [hcontacts]
    have hfinish := fun contacts accepted => State.finishScan_eq (s := s) (closed := closed) (contacts := contacts)
      (accepted := accepted)
    generalize s.msc.debounceFrom closed 0 s.msc.contacts = p at hsorted haccepted hfinish ⊢
    obtain ⟨contacts, accepted⟩ := p
    refine ⟨_, _, hsorted.filter _, hsorted.filter _, fun i => ?_, fun i => ?_, hfinish contacts accepted rfl⟩
    · rw [List.mem_filter, haccepted]
      cases hnew : (contacts.getD i ⟨false, 0⟩).pressed <;> simp
    · rw [List.mem_filter, haccepted]
      cases hnew : (contacts.getD i ⟨false, 0⟩).pressed <;> simp

end Sys2Proof.Machine
end

section
/-! PROOFS. SCAN_TIMER_EXPIRY: a scan in one piece, and one that something comes between (sections 2.2 and 2.3). -/

namespace Sys2Proof.Machine

/-- One reading against the debounced state (R23), by the words of the rule. -/
theorem Contact.debounce_spec (c : Contact) (n : Nat) (closed : List Nat) (i : Nat) :
    if (i ∈ closed ↔ c.pressed = true) then (c.debounce n (closed.contains i)).1 = ⟨c.pressed, 0⟩
    else if c.counter + 1 = n then (c.debounce n (closed.contains i)).1 = ⟨!c.pressed, 0⟩
    else (c.debounce n (closed.contains i)).1 = ⟨c.pressed, c.counter + 1⟩ := by
  have hsame : (closed.contains i == c.pressed) = true ↔ (i ∈ closed ↔ c.pressed = true) := by
    rw [beq_iff_eq, Bool.eq_iff_iff, List.contains_iff_mem]
  unfold Contact.debounce
  by_cases h : i ∈ closed ↔ c.pressed = true
  · rw [if_pos h, if_pos (hsame.2 h)]
  · rw [if_neg h, if_neg fun hs => h (hsame.1 hs)]
    by_cases hn : c.counter + 1 = n
    · rw [if_pos hn, if_pos hn]
    · rw [if_neg hn, if_neg hn]

namespace State

/-! ## Deliveries outside RUN and RELOADING -/

/-- The Placement Unit and the Note Roster take nothing of a scan outside RUN and RELOADING (R49). -/
def Unplayed (s t : State) : Prop := t.plu = s.plu ∧ t.nrs = s.nrs ∧ t.playing = s.playing

theorem selectRegistration_unplayed (s : State) (n : Nat) : s.Unplayed (s.selectRegistration n) := by
  cases h : s.working with
  | false =>
    rw [selectRegistration_of_idle h]
    exact ⟨rfl, rfl, rfl⟩
  | true =>
    have hadopt : s.Unplayed (s.adoptRegistration n) := by
      rw [s.adoptRegistration_written n]
      exact ⟨rfl, rfl, rfl⟩
    rw [selectRegistration_of_working h]
    generalize s.adoptRegistration n = u at hadopt ⊢
    split <;> exact hadopt

theorem deliverRelease_unplayed {s : State} (h : s.playing = false) (i : Nat) : s.Unplayed (s.deliverRelease i) := by
  unfold deliverRelease
  rw [placementEvent_of_idle h]
  split <;> exact ⟨rfl, rfl, rfl⟩

theorem deliverPress_unplayed {s : State} (h : s.playing = false) (i : Nat) : s.Unplayed (s.deliverPress i) := by
  unfold deliverPress
  dsimp only
  rw [placementEvent_of_idle h]
  split
  · exact ⟨rfl, rfl, rfl⟩
  · exact ⟨rfl, rfl, rfl⟩
  · split
    · exact s.selectRegistration_unplayed _
    · exact ⟨rfl, rfl, rfl⟩
  · exact ⟨rfl, rfl, rfl⟩
  · exact ⟨rfl, rfl, rfl⟩

theorem Unplayed.foldl {f : State → Nat → State} (hf : ∀ (t : State) i, t.playing = false → t.Unplayed (f t i))
    (l : List Nat) {s : State} (hs : s.playing = false) : s.Unplayed (l.foldl f s) := by
  induction l generalizing s with
  | nil => exact ⟨rfl, rfl, rfl⟩
  | cons i l ih =>
    obtain ⟨h1, h2, h3⟩ := hf s i hs
    obtain ⟨g1, g2, g3⟩ := ih (h3.trans hs)
    exact ⟨g1.trans h1, g2.trans h2, g3.trans h3⟩

theorem finishScan_unplayed {s : State} (h : s.playing = false) (closed : List Nat) : s.Unplayed (s.finishScan closed) := by
  have hscan := finishScan_eq (s := s) (closed := closed) rfl
  rw [hscan]
  have hreleases := Unplayed.foldl (fun t i ht => deliverRelease_unplayed ht i) ((s.msc.debounceFrom closed 0 s.msc.contacts).2.filter
    fun i => !((s.msc.debounceFrom closed 0 s.msc.contacts).1.getD i ⟨false, 0⟩).pressed) (s := { s with msc := { s.msc with
      contacts := (s.msc.debounceFrom closed 0 s.msc.contacts).1, scanning := false } }) h
  obtain ⟨h1, h2, h3⟩ := hreleases
  obtain ⟨g1, g2, g3⟩ := Unplayed.foldl (fun t i ht => deliverPress_unplayed ht i) ((s.msc.debounceFrom closed 0 s.msc.contacts).2.filter
    fun i => ((s.msc.debounceFrom closed 0 s.msc.contacts).1.getD i ⟨false, 0⟩).pressed) (h3.trans h)
  exact ⟨g1.trans h1, g2.trans h2, g3.trans h3⟩

/-! ## What a scan leaves -/

/-- The contacts are debounced against the readings, and the rest is as it was but for what the deliveries change. -/
def Debounced (s : State) (closed : List Nat) (t : State) : Prop :=
  t.msc.contacts.length = s.msc.contacts.length ∧
  (∀ i : Nat, i < s.msc.contacts.length →
    let old := s.msc.contacts.getD i ⟨false, 0⟩
    let new := t.msc.contacts.getD i ⟨false, 0⟩
    if i / 12 < s.msc.driveCount ∧ i % 12 < s.msc.senseCount then
      (if (i ∈ closed ↔ old.pressed = true) then new = ⟨old.pressed, 0⟩
       else if old.counter + 1 = s.msc.debounceCount then new = ⟨!old.pressed, 0⟩
       else new = ⟨old.pressed, old.counter + 1⟩)
    else new = old) ∧
  State.NotesOnly { s with
    msc := { s.msc with
      contacts := t.msc.contacts
      shiftCount := t.msc.shiftCount
      scanTimer := t.msc.scanTimer
      scanning := false }
    grf := { s.grf with registration := t.grf.registration } } t

theorem finishScan_msc (s : State) (closed : List Nat) : (s.finishScan closed).msc = { s.msc with
    contacts := (s.msc.debounceFrom closed 0 s.msc.contacts).1
    shiftCount := (s.finishScan closed).msc.shiftCount
    scanning := false } := by
  have h := s.finishScan_only closed
  unfold DeliveryOnly at h
  exact h.msc_eq

theorem finishScan_debounced (s : State) (closed : List Nat) : s.Debounced closed (s.finishScan closed) := by
  have hcontacts := s.finishScan_contacts closed
  refine ⟨?_, fun i hi => ?_, ?_⟩
  · rw [hcontacts]
    exact (s.msc.debounceFrom_spec closed s.msc.contacts 0).1
  · dsimp only
    rw [hcontacts, s.msc.debounceFrom_getD closed hi]
    have hscanned : s.msc.scanned i = true ↔ i / 12 < s.msc.driveCount ∧ i % 12 < s.msc.senseCount := by
      simp [MatrixScanner.scanned]
    by_cases h : i / 12 < s.msc.driveCount ∧ i % 12 < s.msc.senseCount
    · rw [if_pos h, if_pos (hscanned.2 h)]
      exact Contact.debounce_spec _ _ closed i
    · rw [if_neg h, if_neg fun hs => h (hscanned.1 hs)]
  · have h := s.finishScan_only closed
    have htimer : (s.finishScan closed).msc.scanTimer = s.msc.scanTimer := by rw [s.finishScan_msc closed]
    unfold DeliveryOnly at h
    rw [hcontacts, htimer]
    exact h

end State

/-- Settles O23. -/
theorem scanDebouncesEveryContact : Obligations.ScanDebouncesEveryContact := by
  refine ⟨fun s closed hup => ?_, fun s line => by simp [State.drives, and_assoc]⟩
  intro debounced
  refine ⟨fun hrun htimer hidle => ?_, fun hscanning => ?_, fun hscanning => ?_⟩
  · have hscan : s.mayScan = true := State.mayScan_iff.2 ⟨hrun, htimer, hidle⟩
    refine ⟨⟨s.scan closed, (exec_of_up hup _).trans (congrArg _ (if_pos hscan)), rfl, ?_, ?_⟩,
      (exec_of_up hup _).trans (congrArg _ (if_pos hscan))⟩
    · have h := State.finishScan_msc (s.setMsc s.msc.startScan) closed
      exact congrArg MatrixScanner.scanTimer h
    · exact State.finishScan_debounced (s.setMsc s.msc.startScan) closed
  · refine ⟨s.finishScan closed, (exec_of_up hup _).trans (congrArg _ (if_pos hscanning)), rfl,
      by rw [s.finishScan_msc closed], s.finishScan_debounced closed, fun hidle => ?_,
      fun hidle => State.finishScan_scannerOnly hidle closed⟩
    obtain ⟨hplu, hnrs, -⟩ := State.finishScan_unplayed hidle closed
    exact ⟨hplu, hnrs⟩
  · have hscan : s.mayScan = false := by simp [State.mayScan, hscanning]
    exact ⟨(exec_of_up hup _).trans (congrArg _ (if_neg (by simp [hscan]))),
      (exec_of_up hup _).trans (congrArg _ (if_neg (by simp [hscan])))⟩

end Sys2Proof.Machine
end

section
/-! PROOFS. The slot-use mask: what it holds, and that only a start record's reading changes it (section 11.3). -/

namespace Sys2Proof.Machine

theorem MapStore.slotUse_has (m : MapStore) (k : Slot) : SlotMask.has m.slotUse k = true ↔
    ∃ e ∈ m.map, (∃ f, e = .note f ∧ f.slot = k) ∨
      ∃ f t, e = .chord f t ∧ (f.slot = k ∨ ∃ n ∈ m.template t, n.fixedSlot = some k) := by
  unfold MapStore.slotUse
  rw [maskOf_has, List.any_eq_true]
  refine exists_congr fun e => and_congr Iff.rfl ?_
  cases e <;> simp [MapStore.entryUses, List.any_eq_true]

namespace State

/-- The slot-use mask stands. -/
def KeepsMask (s t : State) : Prop := t.stl.slotUse = s.stl.slotUse

namespace KeepsMask

theorem refl (s : State) : s.KeepsMask s := rfl

theorem trans {s t u : State} (h : s.KeepsMask t) (g : t.KeepsMask u) : s.KeepsMask u := Eq.trans g h

theorem of_stl {s t : State} (h : t.stl = s.stl) : s.KeepsMask t := congrArg StartLoader.slotUse h

theorem of_notesOnly {s t : State} (h : State.NotesOnly s t) : s.KeepsMask t := of_stl h.stl_eq

/-! ## Operations -/

theorem writeEntry (s : State) (key : TableKey) (f : OutFrame) : s.KeepsMask (s.writeEntry key f) := by
  rw [writeEntry_eq_mark]
  exact rfl

theorem settleRate (s : State) (rate : LinkRate) : s.KeepsMask (s.settleRate rate) := by
  rw [settleRate_eq]
  exact rfl

theorem enterRun (s : State) : s.KeepsMask s.enterRun := by
  have hpresence : ∀ u : State, u.KeepsMask u.writePresence := fun u => (writeEntry u _ _).trans rfl
  have hbellows : ∀ u : State, u.KeepsMask u.writeBellows := fun u => (writeEntry u _ _).trans rfl
  unfold State.enterRun
  dsimp only
  have hstart : s.KeepsMask ((s.setStc { s.stc with station := .run, joinTimer := none }).setMsc s.msc.start) := rfl
  split
  · exact KeepsMask.trans (hstart.trans (hpresence _)) (hbellows _)
  · exact hstart.trans (hpresence _)

theorem finishScan (s : State) (closed : List Nat) : s.KeepsMask (s.finishScan closed) := by
  have h := s.finishScan_only closed
  unfold DeliveryOnly at h
  exact of_stl h.stl_eq

theorem writeBellowsAfter (s : State) (b : BellowsUnit) : s.KeepsMask (s.writeBellowsAfter b) := by
  rw [writeBellowsAfter_eq]
  split <;> exact rfl

theorem handBellows (s : State) : s.KeepsMask s.handBellows := of_stl s.handBellows_notesOnly.stl_eq

theorem missSample (s : State) : s.KeepsMask s.missSample := by
  by_cases h : s.blw.missed + 1 < 8 ∨ s.blw.sensorLost = true
  · rw [missSample_of_few h]
    exact rfl
  · simp only [not_or, Bool.not_eq_true, Nat.not_lt] at h
    rw [missSample_of_eighth h.1 h.2]
    exact (handBellows s.sensorGone).trans (writeBellowsAfter _ _)

theorem takeSample (s : State) (count : Int) : s.KeepsMask (s.takeSample count) := by
  have hsampled : s.KeepsMask s.sampled := by
    rw [s.sampled_eq]
    exact rfl
  have hhanded : ∀ b, s.KeepsMask ((s.sampled.setBlw b).handBellows.writeBellowsAfter s.blw) := fun b =>
    hsampled.trans ((handBellows (s.sampled.setBlw b)).trans (writeBellowsAfter _ _))
  rw [takeSample_eq]
  split
  · exact refl s
  · split
    · exact hhanded _
    · exact hsampled
  · exact hhanded _

theorem sourceLost (s : State) : s.KeepsMask s.sourceLost := of_stl (sourceLost_notesOnly s).stl_eq

theorem testDrain (s : State) : s.KeepsMask s.testDrain := by
  rcases testDrain_cases s with h | ⟨-, h⟩ <;> rw [h]
  · exact refl s
  · exact rfl

theorem endQueueAttempt (s : State) (a : Attempt) (r : AttemptResult) : s.KeepsMask (s.endQueueAttempt a r) := by
  cases hq : s.lkc.noteQueue with
  | nil =>
    unfold State.endQueueAttempt
    rw [hq]
    exact refl s
  | cons q rest =>
    refine KeepsMask.trans ?_ (of_notesOnly (NoteMoves.endQueueAttempt hq a r).notesOnly)
    have hdrop : ∀ u : State, ∀ o, u.KeepsMask (u.recordDrop o) := fun u o => by
      rw [recordDrop_eq]
      split <;> exact rfl
    rcases s.headEnded_cases a r q rest with hended | hended | hended <;> rw [hended]
    · exact (hdrop (s.mapQueue fun _ => rest) _).trans (of_notesOnly (FineMoves.frameOut _ _).notesOnly)
    · exact of_notesOnly (FineMoves.frameBack (s.mapQueue fun _ => rest) _).notesOnly
    · exact of_notesOnly (FineMoves.frameBack (s.mapQueue fun _ => _ :: rest) _).notesOnly

theorem attemptEnd (s : State) (read : List Bool) : s.KeepsMask (s.attemptEnd read) := by
  rcases s.attemptEnd_cases read with ⟨-, h⟩ | ⟨r, -, h⟩ <;> rw [h]
  · exact refl s
  rcases s.endAttempt_cases r with ⟨-, h⟩ | ⟨a, -, ⟨-, h⟩ | ⟨key, -, h⟩ | ⟨-, h⟩⟩ <;> rw [h]
  · exact refl s
  · exact rfl
  · refine KeepsMask.trans ?_ (testDrain _)
    rw [endTableAttempt_eq]
    exact rfl
  · exact (endQueueAttempt (s.freed r) a r).trans (testDrain _)

theorem idle (s : State) : s.KeepsMask s.idle := by
  rcases s.idle_cases with ⟨-, h⟩ | ⟨a, -, -, -, h⟩ | ⟨-, -, h⟩ <;> rw [h] <;> exact rfl

theorem takeValid (s : State) (f : RxFrame) : s.KeepsMask (s.takeValid f) := by
  unfold State.takeValid
  split
  · rw [takeOwn_eq]
    exact rfl
  · split
    · exact rfl
    · split
      · exact refl s
      · split <;> exact rfl

theorem receiveBits (s : State) (rate : LinkRate) (bits : List Bool) (afterIdle : Bool) :
    s.KeepsMask (s.receiveBits rate bits afterIdle) := by
  rcases receiveBits_cases s rate bits afterIdle with h | ⟨-, -, r, -, ⟨-, h⟩ | ⟨-, h⟩⟩ <;> rw [h]
  · exact refl s
  · exact rfl
  · refine KeepsMask.trans ?_ (takeValid _ _)
    split
    · exact settleRate s rate
    · exact refl s

/-! ## What blocks do with a frame -/

theorem setGroup (s : State) (d : Direction) (level : Nat) : s.KeepsMask (s.setGroup d level) :=
  of_stl (setGroup_notesOnly s d level).stl_eq

theorem takeBellows (s : State) (f : RxFrame) : s.KeepsMask (s.takeBellows f) := by
  unfold State.takeBellows acceptBellows
  split
  · split
    · exact sourceLost s
    · refine KeepsMask.trans ?_ (setGroup _ _ _)
      exact rfl
  · exact refl s

theorem takeRegistration (s : State) (f : RxFrame) : s.KeepsMask (s.takeRegistration f) := by
  unfold State.takeRegistration
  split
  · exact of_stl (adoptRegistration_notesOnly s _).stl_eq
  · exact refl s

theorem recomputeAndTrim (s : State) : s.KeepsMask s.recomputeAndTrim := of_stl (recomputeAndTrim_spec s).2.stl_eq

theorem takeOffer (s : State) (f : RxFrame) : s.KeepsMask (s.takeOffer f) := by
  have hadopt : ∀ (u : State) (offers : List Offer), u.KeepsMask (u.adoptOffers offers) := fun u offers => by
    unfold State.adoptOffers
    refine KeepsMask.trans ?_ (recomputeAndTrim _)
    exact rfl
  unfold State.takeOffer
  split
  · dsimp only
    split
    · split
      · exact hadopt _ _
      · exact rfl
    · exact rfl
  · exact refl s

theorem takeAlert (s : State) (f : RxFrame) : s.KeepsMask (s.takeAlert f) := by
  have hexhausted : ∀ mask, s.KeepsMask (s.takeExhausted mask) := fun mask => by
    unfold State.takeExhausted
    refine KeepsMask.trans ?_ (recomputeAndTrim _)
    exact rfl
  have hrestarted : ∀ u : State, u.KeepsMask u.takeRestarted := fun u => of_notesOnly (NoteMoves.takeRestarted u).notesOnly
  have hpanic : ∀ u : State, u.KeepsMask u.panic := fun u => of_notesOnly (NoteMoves.panic u).notesOnly
  have h1 : s.KeepsMask (if f.alertFlag 0 then s.takeExhausted (f.byte 1) else s) := by
    split
    · exact hexhausted _
    · exact refl s
  have h2 : ∀ u : State, u.KeepsMask (if f.alertFlag 1 then u.takeRestarted else u) := fun u => by
    split
    · exact hrestarted u
    · exact refl u
  unfold State.takeAlert
  split
  · dsimp only
    split
    · exact (h1.trans (h2 _)).trans (hpanic _)
    · exact h1.trans (h2 _)
  · exact refl s

theorem writeStatus (s : State) (r : Response) : s.KeepsMask (s.writeStatus r) := writeEntry s _ _

theorem enterReloading (s : State) : s.KeepsMask s.enterReloading := by
  have hpanic : ∀ u : State, u.KeepsMask u.panic := fun u => of_notesOnly (NoteMoves.panic u).notesOnly
  have hpresence : ∀ u : State, u.KeepsMask u.writePresence := fun u => (writeEntry u _ _).trans rfl
  unfold State.enterReloading
  dsimp only
  refine KeepsMask.trans ?_ (testDrain _)
  have hstopped : s.KeepsMask (((s.setStc { s.stc with station := .reloading, joinTimer := none }).setMsc
      s.msc.stop).setBlw s.blw.stop) := rfl
  exact ((hstopped.trans (hpanic _)).trans (writeStatus _ _)).trans (hpresence _)

theorem takeQuery (s : State) (f : RxFrame) : s.KeepsMask (s.takeQuery f) := by
  have hpanic : s.KeepsMask s.panic := of_notesOnly (NoteMoves.panic s).notesOnly
  unfold State.takeQuery
  dsimp only
  split
  · split
    · exact writeStatus s _
    · exact hpanic.trans (writeStatus _ _)
    · split
      · exact writeStatus s _
      · exact enterReloading s
    · exact writeStatus s _
  · exact refl s

theorem handOn (s : State) (f : RxFrame) : s.KeepsMask (s.handOn f) := by
  have hheard : s.KeepsMask (s.heard f) := of_stl (s.heard_stl f)
  rw [handOn_eq]
  split_ifs
  · exact hheard.trans (takeBellows _ f)
  · exact hheard
  · exact hheard.trans (takeRegistration _ f)
  · exact hheard
  · exact hheard.trans (takeOffer _ f)
  · exact hheard.trans (takeAlert _ f)
  · exact hheard.trans (takeQuery _ f)
  · exact hheard

theorem deliver (s : State) (p : RxFrame → Bool) : s.KeepsMask (s.deliver p) := by
  unfold State.deliver
  split
  · split
    · exact refl s
    · split
      · refine KeepsMask.trans ?_ (handOn _ _)
        exact rfl
      · exact refl s
  · exact refl s

end KeepsMask

/-- A command that acts under a condition keeps the mask where its effect does. -/
theorem KeepsMask.ite {s t : State} {c : Prop} [Decidable c] (h : s.KeepsMask t) : s.KeepsMask (if c then t else s) := by
  split
  · exact h
  · exact .refl s

/-- Only the reading of a start record and the commands of RESET change the mask. -/
theorem meaning_keepsMask {s : State} {c : Instr} (hpin : c ≠ .resetPinEvent) (hedge : c ≠ .resetRisingEdge)
    (hread : ∀ rest, c ≠ .startRecordRead rest) : s.KeepsMask (meaning c s) := by
  cases c with
  | resetPinEvent => exact absurd rfl hpin
  | resetRisingEdge => exact absurd rfl hedge
  | startRecordRead rest => exact absurd rfl (hread rest)
  | startRecordHeaderRead b0 b1 b2 b3 =>
    refine KeepsMask.ite ?_
    unfold readHeader
    split <;> exact rfl
  | listenTimerExpiry => exact .ite (.settleRate s _)
  | joinTimerExpiry => exact .ite (.enterRun s)
  | drainTimerExpiry => exact .ite rfl
  | scanTimerExpiry scan =>
    cases scan with
    | whole closed => exact .ite (KeepsMask.finishScan (s.setMsc s.msc.startScan) closed)
    | start => exact .ite rfl
    | finish closed => exact .ite (.finishScan s closed)
  | sampleTimerExpiry =>
    refine KeepsMask.ite ?_
    split
    · exact KeepsMask.trans (.missSample s) rfl
    · exact rfl
  | sensorSample count late => exact .ite (.takeSample s _)
  | heartbeatTimerExpiry => exact .ite (KeepsMask.trans (.writeEntry s _ _) rfl)
  | staleTimerExpiry => exact .ite rfl
  | lostTimerExpiry => exact .ite (.sourceLost s)
  | breathTimerExpiry => exact .ite (.of_notesOnly ((NotesOnly.setPlu s _).trans (.placementEvent _ _)))
  | staccatoDeadlineExpiry tag =>
    refine KeepsMask.ite ?_
    split
    · exact .refl s
    · exact .ite (.of_notesOnly (.endVictim s tag _))
  | presenceTimerExpiry => exact .ite (KeepsMask.trans (.writeEntry s _ _) rfl)
  | peerExpiry a => exact .ite (.of_stl (peerReport_stl (s.setPeer a .absent)))
  | engineLivenessTimerExpiry => exact .ite rfl
  | linkDropTimerExpiry => exact .ite rfl
  | idleMoment => exact .idle s
  | attemptEnd read => exact .attemptEnd s read
  | frameReceived rate bits afterIdle => exact .receiveBits s rate bits afterIdle
  | bellowsFrame | registrationFrame | presenceFrame | untakenFrame | engineOfferPart | engineAlertExhausted
  | engineAlertRestarted | engineAlertPanic | queryStatus | queryPanic | queryReload | queryOtherAction
  | engineAlertNoFlag => exact .deliver s _

end State

/-- Settles O11. -/
theorem slotUseMaskIsThatOfTheMap : Obligations.SlotUseMaskIsThatOfTheMap := by
  refine ⟨MapStore.slotUse_has, fun s t c h hpin hedge hread => ?_⟩
  cases hlow : s.resetLow with
  | false =>
    rw [exec_of_up hlow] at h
    obtain rfl := Host.Outcome.next.inj h
    exact State.meaning_keepsMask hpin hedge hread
  | true =>
    rw [exec_of_low hlow hpin hedge] at h
    obtain rfl := Host.Outcome.next.inj h
    rfl

end Sys2Proof.Machine
end

section
/-! PROOFS. The reading of a start record: the checks it fails, and the entry to JOINING (sections 11.2 and 11.4). -/

namespace Sys2Proof.Machine

/-! ## Words of the image -/

theorem word16_toNat (hi lo : Byte) : (word16 hi lo).toNat = 256 * hi.toNat + lo.toNat := by
  have hlo := lo.isLt
  unfold word16
  rw [BitVec.toNat_append, ← Nat.shiftLeft_add_eq_or_of_lt hlo, Nat.shiftLeft_eq]
  omega

theorem imageWord_toNat (img : List Byte) (i : Nat) :
    (imageWord img i).toNat = 256 * (imageByte img i).toNat + (imageByte img (i + 1)).toNat := word16_toNat _ _

theorem mapCount_eq (img : List Byte) :
    mapCount img = 256 * (imageByte img 4).toNat + (imageByte img 5).toNat := imageWord_toNat img 4

theorem recordLength_eq (img : List Byte) :
    recordLength img = 256 * (imageByte img 0).toNat + (imageByte img 1).toNat := imageWord_toNat img 0

theorem exec_startRecordRead {s : State} {b0 b1 b2 b3 : Byte} (hup : s.resetLow = false) (hstation : s.stc.station = .loading)
    (hport : s.stl.port = .record b0 b1 b2 b3) (rest : List Byte) :
    exec (.startRecordRead rest) s = .next (s.readRecord (b0 :: b1 :: b2 :: b3 :: rest)) := by
  refine (exec_of_up hup _).trans (congrArg _ ?_)
  change s.recordRead rest = _
  unfold State.recordRead
  rw [hstation, hport]

/-! ## Records that fail a check -/

/-- The structural checks (R166). -/
theorem goodRecord_iff (img : List Byte) : goodRecord img = true ↔
    recordLength img ≤ 32768 ∧ 817 + 4 * mapCount img ≤ recordLength img ∧
      imageWord img (recordLength img - 2) = crc16 (bytesToBits (imagePrefix (recordLength img - 2) img)) ∧
      (1 ≤ (imageByte img 2).toNat ∧ (imageByte img 2).toNat ≤ 12) ∧
      (1 ≤ (imageByte img 3).toNat ∧ (imageByte img 3).toNat ≤ 4) ∧ mapCount img ≤ 4096 := by
  unfold goodRecord
  rw [crcBytesFrom_eq]
  simp only [Bool.and_eq_true, decide_eq_true_eq, beq_iff_eq, and_assoc]
  exact Iff.rfl

/-- Settles O7. -/
theorem badRecordEntersFault : Obligations.BadRecordEntersFault := by
  intro s b0 b1 b2 b3 rest hup hstation hport hbad
  have hexec := exec_startRecordRead hup hstation hport rest
  have hfails : goodRecord (b0 :: b1 :: b2 :: b3 :: rest) = false := by
    rw [← Bool.not_eq_true, goodRecord_iff, recordLength_eq, mapCount_eq]
    rintro ⟨hlen, hroom, hcrc, haddress, hgroup, hcount⟩
    change b2.toNat ≥ 1 ∧ b2.toNat ≤ 12 at haddress
    change b3.toNat ≥ 1 ∧ b3.toNat ≤ 4 at hgroup
    change 256 * b0.toNat + b1.toNat ≤ 32768 at hlen
    change _ ≤ 256 * b0.toNat + b1.toNat at hroom
    dsimp only at hbad
    rcases hbad with h | h | h | h | h | h | h | h
    · omega
    · omega
    · exact h hcrc
    · omega
    · omega
    · omega
    · omega
    · omega
  refine ⟨_, hexec.trans (congrArg _ (if_neg (by simp [hfails]))), rfl, rfl, rfl, rfl, rfl, rfl, rfl, rfl, rfl, rfl, rfl,
    rfl, rfl⟩

end Sys2Proof.Machine
end

section
/-! PROOFS. What a good record's reading leaves, and the entry to JOINING that follows it (sections 11.3 and 11.4). -/

namespace Sys2Proof.Machine

namespace State

/-! ## The state loaded from a record -/

/-- The state after a good record has been written into the blocks and the loading has ended (R166, R130, R133, R96). -/
def recorded (s : State) (img : List Byte) : State := (s.writeRecord img).finishLoading img

theorem recorded_eq (s : State) (img : List Byte) : s.recorded img = { s with
    stl := ⟨.idle, imageNat img 2, (MapStore.mk (mapOf img) (templatesOf img) (registrationsOf img)).slotUse⟩
    mst := ⟨mapOf img, templatesOf img, registrationsOf img⟩
    msc := { s.msc with
      driveCount := clampNat 1 16 (imageNat img 8)
      senseCount := clampNat 1 12 (imageNat img 9)
      scanCode := clampNat 1 8 (imageNat img 10)
      debounceCount := clampNat 1 8 (imageNat img 11)
      plan := planOf img }
    blw := { s.blw with settings := bellowsSettingsOf img }
    grf := { s.grf with ownGroup := imageNat img 3, registrationMode := modeOf img }
    plu := { s.plu with holdTime := 10 * clampNat 0 200 (imageNat img 19) }
    lvu := { s.lvu with
      threshold := clampNat 1 8 (imageNat img 20)
      sectionLevel := (s.recorded img).lvu.sectionLevel
      lastSent := (s.recorded img).lvu.lastSent
      justRestarted := (s.recorded img).lvu.justRestarted }
    ofu := { s.ofu with
      table := tableOf (defaultOffer img)
      engine := .unheard
      livenessTimer := some (ms 2000)
      share := (s.recorded img).ofu.share
      limit := (s.recorded img).ofu.limit }
    lkc := { s.lkc with
      updates := { s.lkc.updates with levels := (s.recorded img).lkc.updates.levels }
      tx := (s.recorded img).lkc.tx } } := by
  let limited : State := ((s.writeRecord img).setOfu { (s.writeRecord img).ofu with
    table := tableOf (defaultOffer img)
    engine := .unheard
    livenessTimer := some (ms 2000) }).recomputeLimits
  have h : LevelsWritten limited (s.recorded img) := recomputeLevels_written limited
  have hofu : (s.recorded img).ofu = limited.ofu := (NotesOnly.recomputeLevels limited).ofu_eq
  rw [hofu]
  generalize s.recorded img = w at h
  exact h

theorem recorded_limitsCurrent (s : State) (img : List Byte) : (s.recorded img).LimitsCurrent := by
  unfold recorded finishLoading
  exact LimitsCurrent.of_notesOnly (NotesOnly.recomputeLevels _) (recomputeLimits_current _)

theorem recorded_sectionLevelsCurrent (s : State) (img : List Byte) : (s.recorded img).SectionLevelsCurrent := by
  unfold recorded finishLoading
  exact recomputeLevels_current _

theorem readRecord_of_good {s : State} {img : List Byte} (h : goodRecord img = true) :
    s.readRecord img = (s.recorded img).enterJoining (rateOf img) := if_pos h

/-! ## The entry to JOINING -/

theorem enterJoining_of_rate {s : State} {code : Option LinkRate} {r : LinkRate}
    (h : s.lkc.linkRate = some r ∨ (s.lkc.linkRate = none ∧ code = some r)) :
    s.enterJoining code = s.startJoining.settleRate r := by
  unfold enterJoining
  rcases h with h | ⟨h, rfl⟩ <;> rw [h]

theorem enterJoining_of_none {s : State} (h : s.lkc.linkRate = none) : s.enterJoining none =
    s.startJoining.setLkc { s.startJoining.lkc with listening := true, listenTimer := some (ms 300) } := by
  unfold enterJoining
  rw [h]

theorem startJoining_lkc (s : State) : s.startJoining.lkc = s.lkc := by
  rw [startJoining_eq]
  split <;> rfl

/-- The entry settles the rate or begins to listen: but for the link, the join timer and the presence timer it leaves what
decides the source mode and begins zeroing. -/
theorem enterJoining_frame (s : State) (code : Option LinkRate) : s.enterJoining code = { s.startJoining with
    stc := { s.startJoining.stc with joinTimer := (s.enterJoining code).stc.joinTimer }
    ptb := { s.startJoining.ptb with presenceTimer := (s.enterJoining code).ptb.presenceTimer }
    lkc := (s.enterJoining code).lkc } := by
  cases hrate : s.lkc.linkRate with
  | some r =>
    rw [enterJoining_of_rate (.inl hrate), settleRate_eq]
  | none =>
    cases code with
    | some r => rw [enterJoining_of_rate (.inr ⟨hrate, rfl⟩), settleRate_eq]
    | none =>
      rw [enterJoining_of_none hrate]
      rfl

end State

/-- Settles O9. -/
theorem goodRecordEntersJoining : Obligations.GoodRecordEntersJoining := by
  intro s b0 b1 b2 b3 rest hup hstation hport hgood
  have hexec := exec_startRecordRead hup hstation hport rest
  rw [State.readRecord_of_good hgood] at hexec
  refine ⟨_, hexec, ?_, ?_⟩
  · rw [State.enterJoining_frame, State.startJoining_eq]
    split <;> rfl
  intro img
  have hw := s.recorded_eq img
  change s.recorded (b0 :: b1 :: b2 :: b3 :: rest) = _ at hw
  generalize s.recorded (b0 :: b1 :: b2 :: b3 :: rest) = w at hw ⊢
  have hrate : w.lkc.linkRate = s.lkc.linkRate := by rw [hw]
  have hptb : w.startJoining.ptb = s.ptb := by
    rw [State.startJoining_eq, hw]
    split <;> rfl
  have hjoin : w.startJoining.stc.joinTimer = s.stc.joinTimer := by
    rw [State.startJoining_eq, hw]
    split <;> rfl
  have hjoining : w.startJoining.stc.station = .joining := by
    rw [State.startJoining_eq]
    split <;> rfl
  refine ⟨fun r hr => ?_, fun hnone hauto => ?_, ?_⟩
  · rw [State.enterJoining_of_rate (r := r) (by rw [hrate]; exact hr), State.settleRate_eq]
    exact ⟨rfl, rfl, rfl, rfl, rfl, by rw [hjoining]⟩
  · rw [show rateOf (b0 :: b1 :: b2 :: b3 :: rest) = none from hauto, State.enterJoining_of_none (hrate.trans hnone)]
    exact ⟨(congrArg LinkController.linkRate w.startJoining_lkc).trans (hrate.trans hnone), rfl, rfl, hjoin, hptb⟩
  · have hframe := w.enterJoining_frame (rateOf (b0 :: b1 :: b2 :: b3 :: rest))
    have hblw : w.blw = { s.blw with settings := bellowsSettingsOf img } := by rw [hw]
    have hrole : w.blw.settings.role = roleOf img := by rw [hblw]; rfl
    have htrouble : w.stc.trouble = s.stc.trouble := by rw [hw]
    generalize w.enterJoining (rateOf (b0 :: b1 :: b2 :: b3 :: rest)) = t at hframe ⊢
    rw [State.startJoining_eq, hrole] at hframe
    split
    · rename_i h
      rw [if_pos h] at hframe
      rw [hframe]
      refine ⟨rfl, htrouble, rfl, rfl, rfl, rfl, ?_⟩
      dsimp only
      rw [hblw]
      rfl
    · rename_i h
      rw [if_neg h] at hframe
      rw [hframe]
      refine ⟨rfl, ?_, ?_, hblw⟩
      · dsimp only
        rw [htrouble]
      · have hoff : w.blw.settings.role = false := hrole.trans (Bool.not_eq_true _ ▸ h)
        unfold State.sensorSelect
        dsimp only
        rw [hoff]
        simp

end Sys2Proof.Machine
end

section
/-! PROOFS. The fields of a start record, read from their bytes (section 12.1), and the ranges they lie in. -/

namespace Sys2Proof.Machine

/-! ## Clamps and signed fields -/

theorem clampNat_eq (lo hi x : Nat) (h : lo ≤ hi) : clampNat lo hi x = max lo (min hi x) := by
  unfold clampNat
  split
  · omega
  · split <;> omega

theorem imageInt_eq (img : List Byte) (i : Nat) : imageInt img i =
    if (imageByte img i).toNat < 128 then ((imageByte img i).toNat : Int) else (imageByte img i).toNat - 256 := by
  have h : (2 * (imageByte img i).toNat < 2 ^ 8) ↔ (imageByte img i).toNat < 128 := by omega
  exact (BitVec.toInt_eq_toNat_cond _).trans (if_congr h rfl rfl)

theorem imageWord_toInt (img : List Byte) (i : Nat) : (imageWord img i).toInt =
    if 256 * (imageByte img i).toNat + (imageByte img (i + 1)).toNat < 32768 then
      ((256 * (imageByte img i).toNat + (imageByte img (i + 1)).toNat : Nat) : Int)
    else (256 * (imageByte img i).toNat + (imageByte img (i + 1)).toNat : Nat) - 65536 := by
  have hword := imageWord_toNat img i
  have h : (2 * (imageWord img i).toNat < 2 ^ 16) ↔ 256 * (imageByte img i).toNat + (imageByte img (i + 1)).toNat < 32768 := by
    omega
  refine (BitVec.toInt_eq_toNat_cond _).trans (if_congr h ?_ ?_)
  · rw [hword]
  · rw [hword]
    rfl

/-! ## Map entries -/

/-- The fields of a NOTE or CHORD entry. -/
def noteFieldsOf (w : BitVec 32) : NoteFields where
  slot := Fin.ofNat 8 (field w 27 3)
  pitch := field w 20 7
  articulation := articulationOf (field w 14 2)
  lengthCode := max 1 (field w 10 4)
  levelOffset := (w.extractLsb' 4 6).toInt

theorem mapEntryOf_eq (w : BitVec 32) : mapEntryOf w =
    if field w 30 2 = 0 then .empty
    else if field w 30 2 = 1 then .note (noteFieldsOf w)
    else if field w 30 2 = 2 then .chord (noteFieldsOf w) (field w 16 4)
    else .aliasTo (field w 0 12) := by
  unfold mapEntryOf
  dsimp only
  split
  · rename_i h
    rw [if_pos h]
  · rename_i h
    rw [if_neg (by omega), if_pos h]
    rfl
  · rename_i h
    rw [if_neg (by omega), if_neg (by omega), if_pos h]
    rfl
  · rename_i h0 h1 h2
    rw [if_neg h0, if_neg h1, if_neg h2]

theorem field_lt (w : BitVec 32) (i n : Nat) : field w i n < 2 ^ n := (w.extractLsb' i n).isLt

theorem noteFieldsOf_ranges (w : BitVec 32) : (noteFieldsOf w).pitch ≤ 127 ∧ 1 ≤ (noteFieldsOf w).lengthCode ∧
    (noteFieldsOf w).lengthCode ≤ 15 ∧ -32 ≤ (noteFieldsOf w).levelOffset ∧ (noteFieldsOf w).levelOffset ≤ 31 := by
  have hpitch := field_lt w 20 7
  have hlength := field_lt w 10 4
  have hlow := (w.extractLsb' 4 6).le_toInt
  have hhigh := (w.extractLsb' 4 6).toInt_lt
  refine ⟨?_, ?_, ?_, ?_, ?_⟩
  · change field w 20 7 ≤ 127
    omega
  · exact le_max_left 1 _
  · change max 1 (field w 10 4) ≤ 15
    omega
  · change -32 ≤ (w.extractLsb' 4 6).toInt
    omega
  · change (w.extractLsb' 4 6).toInt ≤ 31
    omega

/-! ## The curve -/

theorem raiseCurve_eq (cs : List Nat) (floor : Nat) :
    raiseCurve floor cs = (List.range cs.length).map fun i => (cs.take (i + 1)).foldl max floor := by
  induction cs generalizing floor with
  | nil => rfl
  | cons c cs ih =>
    rw [raiseCurve, ih, List.length_cons, List.range_succ_eq_map, List.map_cons, List.map_map]
    rfl

/-- Every curve point is the greatest of those up to it (R33). -/
theorem curveOf_eq (img : List Byte) : curveOf img = (List.range 17).map fun i =>
    (List.range (i + 1)).foldl (fun c j => max c ((imageByte img (21 + j)).toNat % 128)) 0 := by
  unfold curveOf
  rw [raiseCurve_eq, List.length_map, List.length_range]
  refine List.map_congr_left fun i hi => ?_
  have hle : min (i + 1) 17 = i + 1 := by
    have := List.mem_range.1 hi
    omega
  rw [← List.map_take, List.take_range, hle, List.foldl_map]
  rfl

theorem curveOf_spec (img : List Byte) :
    (curveOf img).length = 17 ∧ (∀ x ∈ curveOf img, x ≤ 127) ∧ (curveOf img).Pairwise (· ≤ ·) := by
  obtain ⟨hlength, -, hmax, hsorted⟩ := raiseCurve_spec ((List.range 17).map fun i => lowBits 7 (imageByte img (21 + i))) 0
  refine ⟨hlength, hmax 127 (by omega) fun c hc => ?_, hsorted⟩
  obtain ⟨i, -, rfl⟩ := List.mem_map.1 hc
  exact lowBits_seven_le _

/-! ## Ranges -/

theorem strideOf_mem (code : Nat) : strideOf code = 1 ∨ strideOf code = 2 ∨ strideOf code = 4 ∨ strideOf code = 8 := by
  unfold strideOf
  split <;> simp

theorem bankPairOf_ranges (img : List Byte) (off : Nat) : (bankPairOf img off).pushBase ≤ 4095 ∧
    (bankPairOf img off).pullBase ≤ 4095 ∧ ((bankPairOf img off).stride = 1 ∨ (bankPairOf img off).stride = 2 ∨
      (bankPairOf img off).stride = 4 ∨ (bankPairOf img off).stride = 8) := by
  refine ⟨?_, ?_, strideOf_mem _⟩
  · change (imageWord img off).toNat % 4096 ≤ 4095
    omega
  · change (imageWord img (off + 2)).toNat % 4096 ≤ 4095
    omega

/-- Settles O10. -/
theorem loadedValuesLieInTheirRanges : Obligations.LoadedValuesLieInTheirRanges := by
  intro img
  have hbyte : ∀ i, (imageByte img i).toNat ≤ 255 := fun i => by
    have := (imageByte img i).isLt
    omega
  refine ⟨fun e he => ?_, fun p hp => ?_, ⟨?_, fun o ho => ?_⟩, fun notes hnotes => ?_, fun r hr => ?_, ?_, ?_, ?_, ?_⟩
  · obtain ⟨a, -, rfl⟩ := List.mem_map.1 he
    obtain ⟨h1, h2, h3, h4, h5⟩ := noteFieldsOf_ranges (entryWord img a)
    have hchord := field_lt (entryWord img a) 16 4
    have halias := field_lt (entryWord img a) 0 12
    rw [mapEntryOf_eq]
    split
    · simp
    · split
      · refine ⟨fun f hf => ?_, (fun _ _ h => by cases h), (fun _ h => by cases h)⟩
        obtain rfl := MapEntry.note.inj hf
        exact ⟨h1, h2, h3, h4, h5⟩
      · split
        · refine ⟨(fun _ h => by cases h), fun f t hf => ?_, (fun _ h => by cases h)⟩
          obtain ⟨rfl, rfl⟩ := MapEntry.chord.inj hf
          exact ⟨h1, h2, h3, h4, h5, by omega⟩
        · refine ⟨(fun _ h => by cases h), (fun _ _ h => by cases h), fun target ht => ?_⟩
          obtain rfl := MapEntry.aliasTo.inj ht
          omega
  · obtain ⟨k, -, rfl⟩ := List.mem_map.1 hp
    refine ⟨hbyte _, hbyte _, ?_⟩
    change (imageWord img _).toNat % 4096 ≤ 4095
    omega
  · unfold defaultOffer
    simp
  · obtain ⟨j, -, rfl⟩ := List.mem_map.1 ho
    exact ⟨lowBits_seven_le _, lowBits_seven_le _, hbyte _⟩
  · obtain ⟨t, -, rfl⟩ := List.mem_map.1 hnotes
    have hcount := clampNat_eq 1 4 (imageNat img (38 + 4 * mapCount img + 9 * t)) (by omega)
    refine ⟨?_, ?_, fun n hn => ?_⟩
    · rw [templateOf, List.length_map, List.length_range]
      omega
    · rw [templateOf, List.length_map, List.length_range]
      omega
    · obtain ⟨j, -, rfl⟩ := List.mem_map.1 hn
      exact clampInt_mem (by omega) _
  · obtain ⟨i, -, rfl⟩ := List.mem_map.1 hr
    refine ⟨?_, ?_, fun k => ?_, ?_⟩
    · exact (clampInt_mem (by omega) _).1
    · exact (clampInt_mem (by omega) _).2
    · unfold registrationOf
      dsimp only
      rw [PerSlot.get_ofFn, PerSlot.get_ofFn]
      exact ⟨(clampNat_mem (by omega) _).2, clampInt_mem (by omega) _⟩
    · intro p hp
      simp only [List.mem_cons, List.not_mem_nil, or_false] at hp
      rcases hp with rfl | rfl | rfl <;> exact bankPairOf_ranges img _
  · obtain ⟨hlength, hmax, hsorted⟩ := curveOf_spec img
    have hlow := (imageWord img 12).le_toInt
    have hhigh := (imageWord img 12).toInt_lt
    have hshift := clampNat_mem (show 0 ≤ 7 by omega) (imageNat img 14)
    have hsmoothing := clampNat_mem (show 1 ≤ 6 by omega) (imageNat img 17)
    have hperiod := clampNat_mem (show 1 ≤ 8 by omega) (imageNat img 18)
    refine ⟨?_, ?_, hshift.2, hbyte 15, hbyte 16, hsmoothing.1, hsmoothing.2, hperiod.1, hperiod.2, hlength, hmax, hsorted⟩
    · change (imageWord img 12).toInt ≤ 32767
      omega
    · change -32768 ≤ (imageWord img 12).toInt
      omega
  · simp [templatesOf]
  · simp [registrationsOf]
  · simp [planOf]

end Sys2Proof.Machine
end

section
/-! PROOFS. A good record's fields, from the offsets and the bits of section 12.1's tables into the blocks. -/

namespace Sys2Proof.Machine

/-! ## Map entries from their four bytes -/

theorem entryWord_toNat (img : List Byte) (a : Nat) : (entryWord img a).toNat =
    16777216 * (imageByte img (38 + 4 * a)).toNat + 65536 * (imageByte img (38 + 4 * a + 1)).toNat +
      256 * (imageByte img (38 + 4 * a + 2)).toNat + (imageByte img (38 + 4 * a + 3)).toNat := by
  have hhigh := imageWord_toNat img (38 + 4 * a)
  have hlow := imageWord_toNat img (40 + 4 * a)
  have hlt := (imageWord img (40 + 4 * a)).isLt
  have h2 : 40 + 4 * a = 38 + 4 * a + 2 := by omega
  have h3 : 40 + 4 * a + 1 = 38 + 4 * a + 3 := by omega
  unfold entryWord
  rw [BitVec.toNat_append, ← Nat.shiftLeft_add_eq_or_of_lt hlt, Nat.shiftLeft_eq, hhigh, hlow, h3, h2]
  omega

theorem field_eq (w : BitVec 32) (i n : Nat) : field w i n = w.toNat / 2 ^ i % 2 ^ n := by
  unfold field
  rw [BitVec.extractLsb'_toNat, Nat.shiftRight_eq_div_pow]

theorem articulationOf_eq (code : Nat) :
    articulationOf code = if code = 1 then .staccato else if code = 2 then .swell else .sustain := by
  unfold articulationOf
  split
  · rfl
  · rfl
  · rename_i h1 h2
    rw [if_neg h1, if_neg h2]

theorem levelOffset_eq (w : BitVec 32) : (w.extractLsb' 4 6).toInt =
    if w.toNat / 16 % 64 < 32 then ((w.toNat / 16 % 64 : Nat) : Int) else (w.toNat / 16 % 64 : Nat) - 64 := by
  have hfield : (w.extractLsb' 4 6).toNat = w.toNat / 16 % 64 := field_eq w 4 6
  have h : (2 * (w.extractLsb' 4 6).toNat < 2 ^ 6) ↔ w.toNat / 16 % 64 < 32 := by omega
  refine (BitVec.toInt_eq_toNat_cond _).trans (if_congr h ?_ ?_)
  · rw [hfield]
  · rw [hfield]
    rfl

/-- A map entry from the bytes of its word, most significant first. -/
theorem mapEntryOf_bytes {w : BitVec 32} {b0 b1 b2 b3 : Nat} (h0 : b0 < 256) (h1 : b1 < 256) (h2 : b2 < 256) (h3 : b3 < 256)
    (hw : w.toNat = 16777216 * b0 + 65536 * b1 + 256 * b2 + b3) :
    let offset := 16 * (b2 % 4) + b3 / 16
    let fields : NoteFields := {
      slot := Fin.ofNat 8 (b0 / 8)
      pitch := 16 * (b0 % 8) + b1 / 16
      articulation := if b2 / 64 = 1 then .staccato else if b2 / 64 = 2 then .swell else .sustain
      lengthCode := max 1 (b2 / 4 % 16)
      levelOffset := if offset < 32 then offset else offset - 64 }
    mapEntryOf w =
      if b0 / 64 = 0 then .empty
      else if b0 / 64 = 1 then .note fields
      else if b0 / 64 = 2 then .chord fields (b1 % 16)
      else .aliasTo (256 * (b2 % 16) + b3) := by
  intro offset fields
  have hkind : field w 30 2 = b0 / 64 := by rw [field_eq, hw]; omega
  have hslot : field w 27 3 = b0 / 8 % 8 := by rw [field_eq, hw]; omega
  have hpitch : field w 20 7 = 16 * (b0 % 8) + b1 / 16 := by rw [field_eq, hw]; omega
  have hart : field w 14 2 = b2 / 64 := by rw [field_eq, hw]; omega
  have hlength : field w 10 4 = b2 / 4 % 16 := by rw [field_eq, hw]; omega
  have htemplate : field w 16 4 = b1 % 16 := by rw [field_eq, hw]; omega
  have htarget : field w 0 12 = 256 * (b2 % 16) + b3 := by rw [field_eq, hw]; omega
  have hoffset : w.toNat / 16 % 64 = offset := by
    rw [hw]
    omega
  have hfields : noteFieldsOf w = fields := by
    unfold noteFieldsOf
    rw [hslot, hpitch, hart, hlength, articulationOf_eq, levelOffset_eq, hoffset]
    have hmod : Fin.ofNat 8 (b0 / 8 % 8) = Fin.ofNat 8 (b0 / 8) := Fin.ext (Nat.mod_mod _ _)
    rw [hmod]
  rw [mapEntryOf_eq, hkind, hfields, htemplate, htarget]

/-! ## The other fields -/

theorem strideOf_eq (code : Nat) : strideOf code = 2 ^ min 3 code := by
  unfold strideOf
  split
  · rfl
  · rfl
  · rfl
  · rename_i h0 h1 h2
    have hmin : min 3 code = 3 := Nat.min_eq_left (by
      by_contra hlt
      have : code = 0 ∨ code = 1 ∨ code = 2 := by omega
      exact this.elim h0 (·.elim h1 h2))
    rw [hmin]
    rfl

theorem buttonKindOf_eq (code : Nat) : buttonKindOf code = if code = 1 then .treble else if code = 2 then .bass
    else if code = 3 then .register else if code = 4 then .shift else .noKind := by
  unfold buttonKindOf
  split
  · rfl
  · rfl
  · rfl
  · rfl
  · rename_i h1 h2 h3 h4
    rw [if_neg h1, if_neg h2, if_neg h3, if_neg h4]

theorem rateOf_eq (img : List Byte) : rateOf img = if imageNat img 7 = 1 then some .kbit250
    else if imageNat img 7 = 2 then some .kbit500 else if imageNat img 7 = 3 then some .kbit1000
    else if imageNat img 7 = 4 then some .kbit2000 else none := by
  unfold rateOf
  split
  · rename_i h
    rw [if_pos h]
  · rename_i h
    rw [if_neg (by omega), if_pos h]
  · rename_i h
    rw [if_neg (by omega), if_neg (by omega), if_pos h]
  · rename_i h
    rw [if_neg (by omega), if_neg (by omega), if_neg (by omega), if_pos h]
  · rename_i h1 h2 h3 h4
    rw [if_neg h1, if_neg h2, if_neg h3, if_neg h4]

theorem templateNoteOf_eq (img : List Byte) (off j : Nat) : templateNoteOf img off j = {
    interval := max (-24) (min 24 (if (imageByte img (off + 1 + 2 * j)).toNat < 128
      then ((imageByte img (off + 1 + 2 * j)).toNat : Int) else (imageByte img (off + 1 + 2 * j)).toNat - 256))
    fixedSlot := if (imageByte img (off + 2 + 2 * j)).toNat < 8 then some (Fin.ofNat 8 (imageByte img (off + 2 + 2 * j)).toNat)
      else none } := by
  have hslot : (if h : imageNat img (off + 2 + 2 * j) < 8 then some (⟨_, h⟩ : Slot) else none) =
      if (imageByte img (off + 2 + 2 * j)).toNat < 8 then some (Fin.ofNat 8 (imageByte img (off + 2 + 2 * j)).toNat)
      else none := by
    by_cases h : imageNat img (off + 2 + 2 * j) < 8
    · rw [dif_pos h, if_pos (by exact h)]
      exact congrArg some (Fin.ext (Nat.mod_eq_of_lt h).symm)
    · rw [dif_neg h, if_neg (by exact h)]
  unfold templateNoteOf
  rw [hslot, clampInt_eq (-24) 24 _ (by omega), imageInt_eq]

theorem templateOf_eq (img : List Byte) (off : Nat) : templateOf img off =
    (List.range (max 1 (min 4 (imageByte img off).toNat))).map fun j => {
      interval := max (-24) (min 24 (if (imageByte img (off + 1 + 2 * j)).toNat < 128
        then ((imageByte img (off + 1 + 2 * j)).toNat : Int) else (imageByte img (off + 1 + 2 * j)).toNat - 256))
      fixedSlot := if (imageByte img (off + 2 + 2 * j)).toNat < 8
        then some (Fin.ofNat 8 (imageByte img (off + 2 + 2 * j)).toNat) else none } := by
  unfold templateOf
  rw [clampNat_eq 1 4 _ (by omega)]
  exact List.map_congr_left fun j _ => templateNoteOf_eq img off j

theorem planRangeOf_eq (img : List Byte) (off : Nat) : planRangeOf img off = {
    first := (imageByte img off).toNat
    count := (imageByte img (off + 1)).toNat
    kind := if (imageByte img (off + 2)).toNat = 1 then .treble else if (imageByte img (off + 2)).toNat = 2 then .bass
      else if (imageByte img (off + 2)).toNat = 3 then .register else if (imageByte img (off + 2)).toNat = 4 then .shift
      else .noKind
    ordinalBase := (256 * (imageByte img (off + 3)).toNat + (imageByte img (off + 3 + 1)).toNat) % 4096 } := by
  unfold planRangeOf
  rw [buttonKindOf_eq, imageWord_toNat]
  rfl

theorem bankPairOf_eq (img : List Byte) (off : Nat) : bankPairOf img off = ⟨
    (256 * (imageByte img off).toNat + (imageByte img (off + 1)).toNat) % 4096,
    (256 * (imageByte img (off + 2)).toNat + (imageByte img (off + 2 + 1)).toNat) % 4096,
    2 ^ min 3 (imageByte img (off + 4)).toNat, imageByte img (off + 5)⟩ := by
  unfold bankPairOf
  rw [imageWord_toNat, imageWord_toNat, strideOf_eq]
  rfl

theorem roleOf_eq (img : List Byte) : roleOf img = decide ((imageByte img 6).toNat % 2 = 1) := by
  unfold roleOf
  rw [BitVec.getLsbD, Nat.testBit_zero]

theorem modeOf_eq (img : List Byte) : modeOf img = if (imageByte img 6).toNat / 2 % 2 = 1 then .shared else .own := by
  unfold modeOf
  rw [BitVec.getLsbD, Nat.testBit_eq_decide_div_mod_eq]
  simp

/-! ## The record's values in the blocks -/

/-- The entry to JOINING leaves what the loading wrote. -/
theorem State.enterJoining_keeps (s : State) (code : Option LinkRate) :
    (s.enterJoining code).stc.station = .joining ∧ (s.enterJoining code).stc.counters = s.stc.counters ∧
      (s.enterJoining code).mst = s.mst ∧ (s.enterJoining code).stl = s.stl ∧ (s.enterJoining code).msc = s.msc ∧
      (s.enterJoining code).plu = s.plu ∧ (s.enterJoining code).lvu = s.lvu ∧ (s.enterJoining code).ofu = s.ofu ∧
      (s.enterJoining code).blw.settings = s.blw.settings ∧ (s.enterJoining code).ptb.peers = s.ptb.peers ∧
      (s.enterJoining code).grf = { s.grf with sourceMode := (s.enterJoining code).grf.sourceMode } := by
  rw [s.enterJoining_frame code, s.startJoining_eq]
  split <;> exact ⟨rfl, rfl, rfl, rfl, rfl, rfl, rfl, rfl, rfl, rfl, rfl⟩

theorem goodRecord_written (s : State) (b0 b1 b2 b3 : Byte) (rest : List Byte) (hup : s.resetLow = false)
    (hstation : s.stc.station = .loading) (hport : s.stl.port = .record b0 b1 b2 b3)
    (hgood : goodRecord (b0 :: b1 :: b2 :: b3 :: rest) = true) :
    ∃ t, exec (.startRecordRead rest) s = .next t ∧ t.stc.station = .joining ∧ t.stc.counters = s.stc.counters ∧
      (let img := b0 :: b1 :: b2 :: b3 :: rest
       t.mst = ⟨mapOf img, templatesOf img, registrationsOf img⟩ ∧
       t.stl = ⟨.idle, b2.toNat, (MapStore.mk (mapOf img) (templatesOf img) (registrationsOf img)).slotUse⟩ ∧
       t.grf.ownGroup = b3.toNat ∧ t.grf.registrationMode = modeOf img ∧
       t.blw.settings = bellowsSettingsOf img ∧
       t.msc = { s.msc with
         driveCount := clampNat 1 16 (imageByte img 8).toNat
         senseCount := clampNat 1 12 (imageByte img 9).toNat
         scanCode := clampNat 1 8 (imageByte img 10).toNat
         debounceCount := clampNat 1 8 (imageByte img 11).toNat
         plan := planOf img } ∧
       t.plu = { s.plu with holdTime := 10 * clampNat 0 200 (imageByte img 19).toNat } ∧
       t.lvu.threshold = clampNat 1 8 (imageByte img 20).toNat ∧
       t.ofu.table = tableOf (defaultOffer img) ∧ t.ofu.engine = .unheard ∧ t.ofu.livenessTimer = some (ms 2000) ∧
       t.LimitsCurrent ∧ t.SectionLevelsCurrent) := by
  have hexec := exec_startRecordRead hup hstation hport rest
  rw [State.readRecord_of_good hgood] at hexec
  have hw := s.recorded_eq (b0 :: b1 :: b2 :: b3 :: rest)
  have hlimits := s.recorded_limitsCurrent (b0 :: b1 :: b2 :: b3 :: rest)
  have hlevels := s.recorded_sectionLevelsCurrent (b0 :: b1 :: b2 :: b3 :: rest)
  obtain ⟨hjoining, hcounters, hmst, hstl, hmsc, hplu, hlvu, hofu, hsettings, hpeers, hgrf⟩ :=
    (s.recorded (b0 :: b1 :: b2 :: b3 :: rest)).enterJoining_keeps (rateOf (b0 :: b1 :: b2 :: b3 :: rest))
  refine ⟨_, hexec, hjoining, ?_⟩
  clear hexec hjoining
  generalize (s.recorded (b0 :: b1 :: b2 :: b3 :: rest)).enterJoining (rateOf (b0 :: b1 :: b2 :: b3 :: rest)) = t at *
  generalize s.recorded (b0 :: b1 :: b2 :: b3 :: rest) = w at *
  have hdeclaring : ∀ k, t.ptb.declaring k = w.ptb.declaring k := fun k => by
    unfold PeerTable.declaring
    rw [hpeers]
  refine ⟨by rw [hcounters, hw], by rw [hmst, hw], by rw [hstl, hw]; rfl, by rw [hgrf, hw]; rfl, by rw [hgrf, hw],
    by rw [hsettings, hw], by rw [hmsc, hw]; rfl, by rw [hplu, hw]; rfl, by rw [hlvu, hw]; rfl, by rw [hofu, hw],
    by rw [hofu, hw], by rw [hofu, hw], fun k => ?_, ?_⟩
  · rw [hofu, hdeclaring]
    exact hlimits k
  · exact State.SectionLevelsCurrent.of_eq (congrArg LevelUnit.sectionLevel hlvu) (by rw [hgrf]) (by rw [hgrf]) hmst hlevels

/-- Settles O8. -/
theorem goodRecordIsWrittenIntoTheBlocks : Obligations.GoodRecordIsWrittenIntoTheBlocks := by
  refine ⟨goodRecord_written, fun img => ?_⟩
  intro byte word signed n
  have hn : mapCount img = n := mapCount_eq img
  have hlt : ∀ i, byte i < 256 := fun i => (imageByte img i).isLt
  refine ⟨⟨?_, fun a ha => ?_⟩, ⟨by simp [templatesOf], fun i hi => ?_⟩, ⟨by simp [registrationsOf], fun i hi => ?_⟩,
    ⟨by simp [planOf], fun i hi => ?_⟩, ?_, roleOf_eq img, modeOf_eq img, rateOf_eq img, ?_⟩
  · rw [← hn]
    simp [mapOf]
  · intro b offset fields
    unfold mapOf
    rw [hn, List.getElem?_map, List.getElem?_range ha]
    exact congrArg some (mapEntryOf_bytes (hlt _) (hlt _) (hlt _) (hlt _) (entryWord_toNat img a))
  · intro off
    unfold templatesOf
    rw [hn, List.getElem?_map, List.getElem?_range hi]
    exact congrArg some (templateOf_eq img off)
  · intro off pair
    refine ⟨registrationOf img off, ?_, bankPairOf_eq img off, bankPairOf_eq img (off + 6), bankPairOf_eq img (off + 12), ?_,
      fun k => ⟨?_, ?_⟩⟩
    · unfold registrationsOf
      rw [hn, List.getElem?_map, List.getElem?_range hi]
      rfl
    · unfold registrationOf
      dsimp only
      rw [clampInt_eq (-24) 24 _ (by omega), imageInt_eq]
    · unfold registrationOf
      dsimp only
      rw [PerSlot.get_ofFn, clampNat_eq 0 127 _ (by omega)]
      exact max_eq_right (Nat.zero_le _)
    · unfold registrationOf
      dsimp only
      rw [PerSlot.get_ofFn, clampInt_eq (-64) 63 _ (by omega), imageInt_eq]
  · intro off code
    unfold planOf
    rw [hn, List.getElem?_map, List.getElem?_range hi]
    exact congrArg some (planRangeOf_eq img off)
  · intro off
    unfold defaultOffer
    rw [hn]
    rfl
  · unfold bellowsSettingsOf
    rw [imageWord_toInt, clampNat_eq 0 7 _ (by omega), clampNat_eq 1 6 _ (by omega), clampNat_eq 1 8 _ (by omega), curveOf_eq,
      Nat.max_eq_right (Nat.zero_le _)]
    rfl

end Sys2Proof.Machine
end
